-- ==== Sys2Proof/Word.lean ====
section
/-! DEFINITION. The words of the block: the 8-bit byte and the 16-bit operation word (rules R11, R12, R70). -/

namespace Sys2Proof

/-- An 8-bit unsigned byte, `0x00` to `0xFF` (rule R12). -/
abbrev Byte := BitVec 8

/-- One 16-bit operation word of the operation port (rules R11, R70). -/
abbrev Word := BitVec 16

/-- The 8 bytes of a frame before its checksum: start, address, command and five data bytes (rule R15, conflict C2). -/
abbrev Payload := Vector Byte 8

/-- A 9-byte wire frame, `f[0]` first on the wire and `f[8]` (the checksum) last (rules R50, R81). -/
abbrev Frame := Vector Byte 9

/-- The index of a command in the command table, 0 to 7 (rules R75, R79). -/
abbrev CommandIndex := Fin 8

end Sys2Proof
end

