-- ==== Sys2Proof/Config.lean ====
section
/-! DEFINITION. What is fixed for the life of the block: the protocol constants (rule R9), and the parameters the spec
leaves open (rule R10) as constants without a body, so that no proof can learn a value of them. -/

namespace Sys2Proof.Config

/-- `FRAME_LEN`, the length of every frame in bytes (rules R9, R83). -/
abbrev frameLen : Nat := 9

/-- `START_BYTE` (rule R9). -/
abbrev startByte : Byte := 0xFF

/-- `ADDR_BYTE` (rule R9). -/
abbrev addrByte : Byte := 0x01

/-- `PAYLOAD_LEN`, the length of a command payload in bytes (rule R9). -/
abbrev payloadLen : Nat := 8

/-- `NCMD`, the number of commands in the table (rules R9, R78). -/
abbrev ncmd : Nat := 8

/-- `TEMP_OFFSET` (rules R9, R107). -/
abbrev tempOffset : Nat := 37

/-- `CKSUM_LO`, the first byte position the checksum covers (rules R9, R101). -/
abbrev cksumLo : Nat := 1

/-- `CKSUM_HI`, the last byte position the checksum covers (rules R9, R101). -/
abbrev cksumHi : Nat := 7

/-- `CKSUM_POS`, the position of the checksum byte in a frame (rules R9, R101). -/
abbrev cksumPos : Nat := 8

/-- `CMD_TABLE(k)[2]`, the command byte of command `k`: OPEN, no value may be assumed (rule R80; log entry 6). -/
opaque commandByte : CommandIndex → Byte

/-- `CMD_TABLE(k)[3+j]`, data byte `j` of command `k`: OPEN, no value may be assumed (rule R80; log entry 6). -/
opaque dataByte : CommandIndex → Fin 5 → Byte

/-- `CMD_TABLE(k)`: bytes 0 and 1 are the constants that rule R80 gives every entry, the other six are the open parameter
(rules R10, R80; log entry 6). -/
def cmdTable (k : CommandIndex) : Payload :=
  #v[startByte, addrByte, commandByte k, dataByte k 0, dataByte k 1, dataByte k 2, dataByte k 3, dataByte k 4]

/-- `POLL_PERIOD` in seconds: informative only, since the block models no time (rules R10, R171; log entry 7). -/
opaque pollPeriod : Nat

/-- `BAUD`, the serial rate with its character format: OPEN and outside the block (rule R10, decision D22; log entry 7). -/
opaque baud : Nat

end Sys2Proof.Config
end

