-- ==== Sys2Proof/Syntax.lean ====
section
/-! DEFINITION. The operations of the operation port, one constructor per row of `spec/opcode_table.json` (rules R3, R71),
the three fields of a raw operation word (rule R70), and the environment source that presents each operation (rules R40, R195). -/

namespace Sys2Proof

/-- The 13 operations. Every operand has exactly the width of its field, so every term is an operation some word encodes. -/
inductive Instr where
  /-- `SEND abc_enable`, k = 0 (rule R122). -/
  | sendAbcEnable
  /-- `SEND abc_disable`, k = 1 (rule R123). -/
  | sendAbcDisable
  /-- `SEND read`, k = 2 (rule R124). -/
  | sendRead
  /-- `SEND cal_zero`, k = 3 (rule R125). -/
  | sendCalZero
  /-- `SEND cal_span2k`, k = 4 (rule R126). -/
  | sendCalSpan2k
  /-- `SEND reset`, k = 5: a frame sent to the sensor, not the block's reset (rule R127). -/
  | sendReset
  /-- `SEND set_range2k`, k = 6 (rule R128). -/
  | sendSetRange2k
  /-- `SEND set_range5k`, k = 7 (rule R129). -/
  | sendSetRange5k
  /-- `SEND.NOMATCH`; `s` is the ignored field `SEL[2:0]`, kept so that no bit of the word is lost (rules R72, R130). -/
  | sendNomatch (s : BitVec 3)
  /-- `QUERY` (rule R131). -/
  | query
  /-- `TICK` (rule R170). -/
  | tick
  /-- `RXB <b>`; `b` is the received byte, the field `DATA` (rules R74, R150). -/
  | rxb (b : Byte)
  /-- `RXE` (rule R153). -/
  | rxe
deriving DecidableEq, Repr

/-- The three fields of an operation word: `w[15:12]`, `w[11:8]` and `w[7:0]` (rule R70). -/
structure Fields where
  /-- `OP`, the operation code. -/
  op : BitVec 4
  /-- `SEL`, the command select. -/
  sel : BitVec 4
  /-- `DATA`, the received byte. -/
  data : Byte
deriving DecidableEq, Repr

/-- The three environment sources that drive the operation port (rules R40, R195). -/
inductive Source where
  /-- The external command surface: `SEND`, `SEND.NOMATCH` and `QUERY`. -/
  | controlSurface
  /-- The serial receive path: `RXB` and `RXE`. -/
  | serialReceiver
  /-- The poll timer: `TICK`. -/
  | pollTimer
deriving DecidableEq, Repr

/-- Which source sends an operation (rules R40, R195). -/
def Instr.source : Instr → Source
  | .sendAbcEnable => .controlSurface
  | .sendAbcDisable => .controlSurface
  | .sendRead => .controlSurface
  | .sendCalZero => .controlSurface
  | .sendCalSpan2k => .controlSurface
  | .sendReset => .controlSurface
  | .sendSetRange2k => .controlSurface
  | .sendSetRange5k => .controlSurface
  | .sendNomatch _ => .controlSurface
  | .query => .controlSurface
  | .tick => .pollTimer
  | .rxb _ => .serialReceiver
  | .rxe => .serialReceiver

/-- The operations of the serial receive path, `RXB` and `RXE` (rule R195). -/
def Instr.isReceive (i : Instr) : Bool := i.source == .serialReceiver

end Sys2Proof
end

