-- ==== Sys2Proof/Machine/State.lean ====
section
/-! DEFINITION. The state of the block (rules R23 to R33), its two ports (rules R40, R41), its reset (rule R200), and the
reasons a step can stop. The block has no general register, program counter, condition flag or addressable memory
(rules R20 to R22, R29). -/

namespace Sys2Proof.Machine

/-- The triple a decoded frame yields; `TEMP` is a 16-bit two's-complement pattern (rules R105, R11). -/
structure Reading where
  /-- `co2_ppm`, unsigned 16 bits (rule R106). -/
  co2Ppm : BitVec 16
  /-- `temperature_c`, 16-bit two's complement (rule R107). -/
  temperatureC : BitVec 16
  /-- `status`, the raw byte (rule R108). -/
  status : Byte
deriving DecidableEq, Repr

/-- The events of the event port (rule R41). -/
inductive Event where
  /-- `TX(f)`: one whole frame for the serial transmit path (rule R42). -/
  | tx (f : Frame)
  /-- `SAMPLE_REQ`: a request to sample the secondary sensor. -/
  | sampleReq
  /-- `ACK(k)`: the success reply for command `k`. -/
  | ack (k : CommandIndex)
  /-- `STATUS(c, t, s)`: the status-query reply. -/
  | status (c t : BitVec 16) (s : Byte)
  /-- `PUBLISH(c, t, s)`: the telemetry publish of a decoded reading. -/
  | publish (c t : BitVec 16) (s : Byte)
  /-- `DIAG(ChecksumError)`: the diagnostic for a rejected frame. -/
  | diagChecksumError
deriving DecidableEq, Repr

/-- The values of the `FAULT` register (rule R33). -/
inductive FaultReg where
  /-- No fault recorded, the reset value. -/
  | none
  /-- `IllegalOp(w)`: the reserved word that stopped the block (rule R182). -/
  | illegalOp (w : Word)
deriving DecidableEq, Repr

/-- The whole state of the block and of what stands at its ports. -/
structure State where
  /-- `CO2`, unsigned 16 bits (rule R24). -/
  co2 : BitVec 16
  /-- `TEMP`, 16-bit two's complement (rule R25). -/
  temp : BitVec 16
  /-- `STAT`, unsigned 8 bits (rule R26). -/
  stat : Byte
  /-- `RD_VALID` (rule R23). -/
  rdValid : Bool
  /-- `RXBUF[0..8]`, the receive FIFO of the current burst (rule R30). -/
  rxbuf : Frame
  /-- `RXCNT`, the bytes of the current burst, saturating at 10 (rule R31; log entry 13). -/
  rxcnt : Nat
  /-- `ROM[k][i]`, the command table (rule R32). -/
  rom : Vector Payload 8
  /-- `FAULT` (rule R33). -/
  fault : FaultReg
  /-- The operation port: the words presented and not yet consumed, in arrival order (rules R21, R40; log entry 1). -/
  port : List Word
  /-- The reset input, asserted by the environment and acted on between two operations (rule R200; log entry 3). -/
  resetIn : Bool
  /-- The event port: every event emitted so far, in order (rules R13, R41; log entry 12). -/
  events : List Event
deriving DecidableEq, Repr

/-- Why a step stops the machine. -/
inductive Fault where
  /-- Raised by `step`, never by an operation: `FAULT` holds `IllegalOp(w)`, so the block takes no further step (rule R183).
  Safe: nothing can be proved of what a real implementation does after a reserved word. -/
  | stuckAfterIllegalOp (w : Word)
deriving DecidableEq, Repr

/-- Why an operation has no meaning. -/
inductive Refusal where
  /-- Raised by an arm of `exec` whose operation has no meaning yet. No arm does. Safe. -/
  | notModelled (mnemonic : String)
deriving DecidableEq, Repr

/-- What a meaning or a step answers. -/
abbrev Result := Host.Outcome State Fault Refusal

/-- The machine right after reset (rule R200), with the command table of the configuration (rule R32), nothing presented
and nothing emitted. `RXBUF` is unspecified in the spec and zero here (log entry 5); that the reading registers are zero is the spec's
own decision D11 (log entry 8). -/
def State.reset : State :=
  { co2 := 0
    temp := 0
    stat := 0
    rdValid := false
    rxbuf := #v[0, 0, 0, 0, 0, 0, 0, 0, 0]
    rxcnt := 0
    rom := #v[Config.cmdTable 0, Config.cmdTable 1, Config.cmdTable 2, Config.cmdTable 3,
      Config.cmdTable 4, Config.cmdTable 5, Config.cmdTable 6, Config.cmdTable 7]
    fault := .none
    port := []
    resetIn := false
    events := [] }

end Sys2Proof.Machine
end

