-- ==== Sys2Proof/Machine/Flags.lean ====
section
/-! DEFINITION. The block has no condition flags (rule R22). The one flag that an operation writes is `RD_VALID`
(rule R23), and the one sticky status is `FAULT` (rule R33). -/

namespace Sys2Proof.Machine

/-- `RD_VALID <- 1`, by an `RXE` that accepts a frame (rules R23, R153). -/
def State.markValid (s : State) : State := { s with rdValid := true }

/-- Whether the block takes a step on the next word: only while `FAULT = none` (rules R33, R183). -/
def State.running (s : State) : Bool := s.fault == .none

end Sys2Proof.Machine
end

