-- ==== Sys2Proof/Machine/FrameCodec.lean ====
section
/-! DEFINITION. The three combinational functions of the codec (rules R100 to R108): they read and write no state. The positions of
the fields, the offset 37 and the absence of other checks are the spec's decisions on unaudited points (log entry 9). -/

namespace Sys2Proof.Machine

/-- Byte `i` of a sequence. Every use is guarded by the sequence's length, so the default is never read. -/
def byteAt (b : List Byte) (i : Nat) : Byte := b.getD i 0

/-- `sum(f[lo..hi])`: the exact integer sum of an inclusive slice (rule R12). -/
def sliceSum (f : List Byte) (lo hi : Nat) : Nat := (((f.drop lo).take (hi + 1 - lo)).map BitVec.toNat).sum

/-- `Checksum(f)`: the two's complement of the sum of bytes 1 to 7 modulo 256, with 256 itself read as 0 (rules R100, R101,
conflict C5). -/
def checksum (f : List Byte) : Byte :=
  let s := sliceSum f Config.cksumLo Config.cksumHi % 256
  BitVec.ofNat 8 ((0xFF - s + 1) % 256)

/-- `Compose(p)`: the payload with its checksum appended (rule R103). -/
def compose (p : Payload) : Frame := p.push (checksum p.toList)

/-- The one error of `Decode` (rule R104). -/
inductive DecodeError where
  /-- `ChecksumError`: a wrong length or a checksum that does not match. -/
  | checksumError
deriving DecidableEq, Repr

/-- `co2_ppm` from its high and low byte (rule R106). -/
def co2Field (hi lo : Byte) : BitVec 16 := BitVec.ofNat 16 (256 * hi.toNat + lo.toNat)

/-- `temperature_c`: an exact integer difference, stored in 16-bit two's complement (rule R107). -/
def temperatureField (b : Byte) : BitVec 16 := BitVec.ofInt 16 ((b.toNat : Int) - Config.tempOffset)

/-- The reading that the bytes of a frame carry (rules R82, R104, R106 to R108). -/
def readingOf (b : List Byte) : Reading :=
  { co2Ppm := co2Field (byteAt b 3) (byteAt b 4)
    temperatureC := temperatureField (byteAt b 5)
    status := byteAt b 6 }

/-- `Decode(b)`: the length and the checksum are the only tests (rules R104, R54, conflict C6). -/
def decodeFrame (b : List Byte) : Except DecodeError Reading :=
  if b.length ≠ Config.frameLen then .error .checksumError
  else if byteAt b Config.cksumPos ≠ checksum b then .error .checksumError
  else .ok (readingOf b)

end Sys2Proof.Machine
end

