-- ==== Sys2Proof/Machine/Operands.lean ====
section
/-! DEFINITION. The values an operation computes with, besides its word's fields (rule R20): an entry of the command ROM,
the receive FIFO, and the reading registers read together (rules R27, R32, R53). -/

namespace Sys2Proof.Machine

/-- `ROM[k]`: one whole 8-byte entry (rules R32, R53). -/
def State.romEntry (s : State) (k : CommandIndex) : Payload := s.rom[k.val]

/-- `RXBUF[0..8]` as a byte sequence (rule R153). -/
def State.burst (s : State) : List Byte := s.rxbuf.toList

/-- The three reading registers, read together (rules R27, R53). -/
def State.reading (s : State) : Reading := { co2Ppm := s.co2, temperatureC := s.temp, status := s.stat }

/-- The index of the `read` command, the one a poll tick sends (rules R79, R170). -/
def readCommand : CommandIndex := 2

end Sys2Proof.Machine
end

