-- ==== Sys2Proof/Machine/Ops.lean ====
section
/-! DEFINITION. The shared operations on the state: emitting, the receive FIFO, accepting a reading, recording the
`IllegalOp` fault, reset, and what the environment does to the block's inputs. There is no return from a fault (rule R187):
reset is the only way out (rule R183). -/

namespace Sys2Proof.Machine

/-- `emit` for a sequence of events, in order (rules R13, R41). -/
def State.emit (s : State) (es : List Event) : State := { s with events := s.events ++ es }

/-- The events of a transmitted command: a sample request and one whole frame (rules R121, R170). -/
def transmitEvents (s : State) (k : CommandIndex) : List Event := [.sampleReq, .tx (compose (s.romEntry k))]

/-- The body of `SEND <k>` (rule R121). -/
def sendCommand (k : CommandIndex) (s : State) : State := s.emit (transmitEvents s k ++ [.ack k])

/-- The status reply from the current registers (rules R130, R131). -/
def replyStatus (s : State) : State := s.emit [.status s.co2 s.temp s.stat]

/-- The body of `RXB(b)`: store while fewer than 9 bytes are held, count up to 10 (rule R150). -/
def receiveByte (b : Byte) (s : State) : State :=
  if h : s.rxcnt < 9 then { s with rxbuf := s.rxbuf.set s.rxcnt b h, rxcnt := s.rxcnt + 1 }
  else if s.rxcnt < 10 then { s with rxcnt := s.rxcnt + 1 }
  else s

/-- The three reading registers written together, in one step, from one frame (rules R27, R153). -/
def State.writeReading (s : State) (r : Reading) : State :=
  { s with co2 := r.co2Ppm, temp := r.temperatureC, stat := r.status }

/-- An accepted frame: the registers, `RD_VALID`, and then the same triple published (rules R153, R157). -/
def acceptReading (r : Reading) (s : State) : State :=
  ((s.writeReading r).markValid).emit [.publish r.co2Ppm r.temperatureC r.status]

/-- The outcome kinds of a receive burst: the two errors of rule R180 that `RXE` can meet, or a reading. -/
inductive BurstOutcome where
  /-- `MalformedFrameLength`, error kind 2: silent (rules R154, R180). -/
  | malformedFrameLength
  /-- `ChecksumError`, error kind 1: a diagnostic (rules R155, R180). -/
  | checksumError
  /-- The burst is a frame that carries this reading. -/
  | accepted (r : Reading)
deriving DecidableEq, Repr

/-- What a burst of `n` counted bytes comes to: the length is tested before the checksum (rules R153, R185). -/
def burstOutcome (n : Nat) (b : List Byte) : BurstOutcome :=
  if n ≠ Config.frameLen then .malformedFrameLength
  else match decodeFrame b with
    | .error .checksumError => .checksumError
    | .ok r => .accepted r

/-- What the block does with a burst's outcome; neither error stops it (rules R153, R181). -/
def settleBurst (o : BurstOutcome) (s : State) : State :=
  match o with
  | .malformedFrameLength => s
  | .checksumError => s.emit [.diagChecksumError]
  | .accepted r => acceptReading r s

/-- The body of `RXE`: the count is cleared whatever the outcome (rules R31, R153). -/
def endBurst (s : State) : State :=
  settleBurst (burstOutcome s.rxcnt s.burst) { s with rxcnt := 0 }

/-- Taking the one exception of the block: `FAULT <- IllegalOp(w)` and nothing else. No state is saved, no mode changes and
no control is transferred (rules R182, R186). -/
def raiseIllegalOp (w : Word) (s : State) : State := { s with fault := .illegalOp w }

/-- The reset of rule R200 on a running block: every register to its reset value, the ROM unchanged, events already emitted
kept (rule R201), words not yet consumed kept (log entry 4), and the request served. -/
def takeReset (s : State) : State :=
  { State.reset with rom := s.rom, port := s.port, events := s.events }

/-- The environment presents a word at the operation port, behind those already there (rules R40, R55). -/
def State.present (s : State) (w : Word) : State := { s with port := s.port ++ [w] }

/-- The environment asserts the reset input (rule R200). -/
def State.assertReset (s : State) : State := { s with resetIn := true }

end Sys2Proof.Machine
end

