-- ==== Sys2Proof/Machine/Dispatcher.lean ====
section
/-! DEFINITION. The CommandDispatcher operations: `SEND <k>`, `SEND.NOMATCH` and `QUERY` (rules R121 to R131). -/

namespace Sys2Proof.Machine

/-- `SEND abc_enable` (rule R122). -/
def execSendAbcEnable (s : State) : Result := .next (sendCommand 0 s)

/-- `SEND abc_disable` (rule R123). -/
def execSendAbcDisable (s : State) : Result := .next (sendCommand 1 s)

/-- `SEND read` (rule R124). -/
def execSendRead (s : State) : Result := .next (sendCommand 2 s)

/-- `SEND cal_zero` (rule R125). -/
def execSendCalZero (s : State) : Result := .next (sendCommand 3 s)

/-- `SEND cal_span2k` (rule R126). -/
def execSendCalSpan2k (s : State) : Result := .next (sendCommand 4 s)

/-- `SEND reset`: a frame for the sensor; the block itself is not reset (rules R79, R127). -/
def execSendReset (s : State) : Result := .next (sendCommand 5 s)

/-- `SEND set_range2k` (rule R128). -/
def execSendSetRange2k (s : State) : Result := .next (sendCommand 6 s)

/-- `SEND set_range5k` (rule R129). -/
def execSendSetRange5k (s : State) : Result := .next (sendCommand 7 s)

/-- `SEND.NOMATCH`: `UnknownCommand`, error kind 3, is no error but the status query (rules R130, R180). -/
def execSendNomatch (s : State) : Result := .next (replyStatus s)

/-- `QUERY` (rule R131). -/
def execQuery (s : State) : Result := .next (replyStatus s)

end Sys2Proof.Machine
end

