-- ==== Sys2Proof/Machine/Poll.lean ====
section
/-! DEFINITION. The PollScheduler operation: `TICK` (rule R170). -/

namespace Sys2Proof.Machine

/-- `TICK`: the body of `SEND read` without the acknowledgement (rules R170, R172). -/
def execTick (s : State) : Result := .next (s.emit (transmitEvents s readCommand))

end Sys2Proof.Machine
end

