-- ==== Sys2Proof/Machine/Receiver.lean ====
section
/-! DEFINITION. The ResponseParser operations: `RXB` and `RXE` (rules R150, R153). -/

namespace Sys2Proof.Machine

/-- `RXB <b>` (rule R150). -/
def execRxb (b : Byte) (s : State) : Result := .next (receiveByte b s)

/-- `RXE` (rule R153). -/
def execRxe (s : State) : Result := .next (endBurst s)

end Sys2Proof.Machine
end

