-- ==== Sys2Proof/Machine/Dispatch.lean ====
section
/-! DEFINITION. One operation runs: one arm per constructor of `Instr`, each a direct call of its meaning. An operation does
not test `FAULT`: `step` does, before any operation (rule R183; log entry 14). -/

namespace Sys2Proof.Machine

def exec (i : Instr) (s : State) : Host.Outcome State Fault Refusal :=
  match i with
  | .sendAbcEnable => Sys2Proof.Machine.execSendAbcEnable s
  | .sendAbcDisable => Sys2Proof.Machine.execSendAbcDisable s
  | .sendRead => Sys2Proof.Machine.execSendRead s
  | .sendCalZero => Sys2Proof.Machine.execSendCalZero s
  | .sendCalSpan2k => Sys2Proof.Machine.execSendCalSpan2k s
  | .sendReset => Sys2Proof.Machine.execSendReset s
  | .sendSetRange2k => Sys2Proof.Machine.execSendSetRange2k s
  | .sendSetRange5k => Sys2Proof.Machine.execSendSetRange5k s
  | .sendNomatch _ => Sys2Proof.Machine.execSendNomatch s
  | .query => Sys2Proof.Machine.execQuery s
  | .tick => Sys2Proof.Machine.execTick s
  | .rxb b => Sys2Proof.Machine.execRxb b s
  | .rxe => Sys2Proof.Machine.execRxe s

end Sys2Proof.Machine
end

