-- ==== Sys2Proof/WellFormed.lean ====
section
/-! DEFINITION. The checks. The operands of `Instr` have their fields' widths, so a term of `Instr` cannot be ill formed;
what can be is a raw operation word (rules R72 to R74, R77) and a command table (rule R80). -/

namespace Sys2Proof

/-- The must-be-zero rules of a raw word, one check per operation code; the codes without an entry are reserved
(rules R71 to R74, R77). -/
def Fields.legal (f : Fields) : Bool :=
  (f.op == 0x1#4 && f.data == 0)
    || (f.op == 0x2#4 && f.sel == 0 && f.data == 0)
    || (f.op == 0x3#4 && f.sel == 0 && f.data == 0)
    || (f.op == 0x4#4 && f.sel == 0)
    || (f.op == 0x5#4 && f.sel == 0 && f.data == 0)

/-- Rule R80's constraint on one payload: it begins with the start byte and the address byte. -/
def Payload.meetsTableRule (p : Payload) : Bool :=
  p[0] == Config.startByte && p[1] == Config.addrByte

/-- Rule R80's constraint on a whole command table. -/
def tableMeetsRule (t : Vector Payload 8) : Bool :=
  t.toList.all Payload.meetsTableRule

end Sys2Proof
end

