-- ==== Sys2Proof/Decode.lean ====
section
/-! DEFINITION. Decoding an operation word, total on all 65536 words (rule R76), the encoder beside it (rules R72 to R74, R79,
R84), and the opcode table's rows as masks and patterns. -/

namespace Sys2Proof

/-- The fields of a word (rule R70). -/
def Fields.ofWord (w : Word) : Fields :=
  { op := w.extractLsb' 12 4, sel := w.extractLsb' 8 4, data := w.extractLsb' 0 8 }

/-- The word with the given fields (rule R70). -/
def Fields.toWord (f : Fields) : Word := f.op ++ f.sel ++ f.data

/-- The outcome of decoding: an operation, or the word rejected by name (rule R76). -/
inductive Decoded where
  /-- The word is this operation. -/
  | op (i : Instr)
  /-- `IllegalOp(w)`: the word is reserved or has a non-zero field that must be zero (rule R77). -/
  | illegalOp (w : Word)
deriving DecidableEq, Repr

/-- The operation `SEND <k>`: each command index is its own operation (rules R72, R79). -/
def sendOf (k : CommandIndex) : Instr :=
  match k with
  | 0 => .sendAbcEnable
  | 1 => .sendAbcDisable
  | 2 => .sendRead
  | 3 => .sendCalZero
  | 4 => .sendCalSpan2k
  | 5 => .sendReset
  | 6 => .sendSetRange2k
  | 7 => .sendSetRange5k

/-- The decode algorithm of rule R76, line by line. -/
def decode (w : Word) : Decoded :=
  let f := Fields.ofWord w
  if f.op = 0x1#4 ∧ f.data = 0 ∧ f.sel.getLsbD 3 = false then .op (sendOf (f.sel.extractLsb' 0 3).toFin)
  else if f.op = 0x1#4 ∧ f.data = 0 ∧ f.sel.getLsbD 3 = true then .op (.sendNomatch (f.sel.extractLsb' 0 3))
  else if f.op = 0x2#4 ∧ f.sel = 0 ∧ f.data = 0 then .op .query
  else if f.op = 0x3#4 ∧ f.sel = 0 ∧ f.data = 0 then .op .tick
  else if f.op = 0x4#4 ∧ f.sel = 0 then .op (.rxb f.data)
  else if f.op = 0x5#4 ∧ f.sel = 0 ∧ f.data = 0 then .op .rxe
  else .illegalOp w

/-- The fields of an operation's word (rules R71 to R74, R79). -/
def Instr.fields : Instr → Fields
  | .sendAbcEnable => { op := 0x1, sel := 0x0, data := 0x00 }
  | .sendAbcDisable => { op := 0x1, sel := 0x1, data := 0x00 }
  | .sendRead => { op := 0x1, sel := 0x2, data := 0x00 }
  | .sendCalZero => { op := 0x1, sel := 0x3, data := 0x00 }
  | .sendCalSpan2k => { op := 0x1, sel := 0x4, data := 0x00 }
  | .sendReset => { op := 0x1, sel := 0x5, data := 0x00 }
  | .sendSetRange2k => { op := 0x1, sel := 0x6, data := 0x00 }
  | .sendSetRange5k => { op := 0x1, sel := 0x7, data := 0x00 }
  | .sendNomatch s => { op := 0x1, sel := 1#1 ++ s, data := 0x00 }
  | .query => { op := 0x2, sel := 0x0, data := 0x00 }
  | .tick => { op := 0x3, sel := 0x0, data := 0x00 }
  | .rxb b => { op := 0x4, sel := 0x0, data := b }
  | .rxe => { op := 0x5, sel := 0x0, data := 0x00 }

/-- The one word of an operation (rules R70, R84). -/
def encode (i : Instr) : Word := i.fields.toWord

/-- One row of the opcode table: a word belongs to it when its bits under `mask` are those of `pattern`. -/
structure TableRow where
  /-- The row's `match`. -/
  pattern : Word
  /-- The row's `mask`. -/
  mask : Word
deriving DecidableEq, Repr

/-- Whether a word belongs to a row. -/
def TableRow.covers (r : TableRow) (w : Word) : Bool := w &&& r.mask == r.pattern

/-- The 13 rows of `spec/opcode_table.json`, in its order. -/
def opcodeTable : List TableRow :=
  [{ pattern := 0x1000, mask := 0xFFFF }, { pattern := 0x1100, mask := 0xFFFF }, { pattern := 0x1200, mask := 0xFFFF },
   { pattern := 0x1300, mask := 0xFFFF }, { pattern := 0x1400, mask := 0xFFFF }, { pattern := 0x1500, mask := 0xFFFF },
   { pattern := 0x1600, mask := 0xFFFF }, { pattern := 0x1700, mask := 0xFFFF }, { pattern := 0x1800, mask := 0xF8FF },
   { pattern := 0x2000, mask := 0xFFFF }, { pattern := 0x3000, mask := 0xFFFF }, { pattern := 0x4000, mask := 0xFF00 },
   { pattern := 0x5000, mask := 0xFFFF }]

/-- The word that stands at the port for an instruction of `nbits` bits whose bits are `w`: the low 16 bits, since every
instruction is one 16-bit word (rule R70; log entry 17). -/
def tableWord (nbits w : Nat) : Word := BitVec.ofNat 16 (w % 2 ^ nbits)

/-- What the decoder reads from an instruction numbered as the opcode table numbers it (log entry 17). -/
def decodeTableWord (nbits w : Nat) : Option Instr :=
  match decode (tableWord nbits w) with
  | .op i => some i
  | .illegalOp _ => none

end Sys2Proof
end

