-- ==== Sys2Proof/Machine/Port.lean ====
section
/-! DEFINITION. What the block does next, read from its two inputs: the reset input and the operation port (rules R40, R183,
R200), and the loading of a word at the port from outside. -/

namespace Sys2Proof.Machine

/-- What the next step is. -/
inductive NextAction where
  /-- The reset input is asserted (rule R200). -/
  | reset
  /-- `FAULT` holds `IllegalOp(w)`: there is no step (rule R183). -/
  | stuck (w : Word)
  /-- No word is presented. -/
  | idle
  /-- The word `w` is taken, leaving the state `s` (rules R21, R40). -/
  | perform (w : Word) (s : State)
deriving DecidableEq, Repr

/-- A pending reset acts first, whatever `FAULT` holds (rules R183, R200; log entry 3). With a fault recorded every word is left
unconsumed (rule R183). Otherwise the word that arrived first is consumed (rules R21, R40, R55). -/
def nextAction (s : State) : NextAction :=
  if s.resetIn then .reset
  else match s.fault with
    | .illegalOp w => .stuck w
    | .none =>
      match s.port with
      | [] => .idle
      | w :: rest => .perform w { s with port := rest }

/-- A word put at the head of the operation port with nothing in the way of it: no recorded fault and no pending reset
(log entry 15). It is no transition of the block. -/
def loadWord (w : Word) (s : State) : State := { s with port := w :: s.port, fault := .none, resetIn := false }

end Sys2Proof.Machine
end

