-- ==== Sys2Proof/Machine/Step.lean ====
section
/-! DEFINITION. One step of the block, performed as one indivisible action (rules R40, R55). -/

namespace Sys2Proof.Machine

/-- One step: reset (rule R200), no step after a fault (rule R183; log entry 10), nothing while no word is presented
(log entry 2), or the next word's operation, a reserved word recording the fault (rules R40, R76, R182). -/
def step (s : State) : Host.Outcome State Fault Refusal :=
  match nextAction s with
  | .reset => .next (takeReset s)
  | .stuck w => .fault (.stuckAfterIllegalOp w)
  | .idle => .next s
  | .perform w t =>
    match decode w with
    | .op i => exec i t
    | .illegalOp v => .next (raiseIllegalOp v t)

/-- The state whose very next step runs the given instruction (log entries 1 and 15): how a program is brought to the block from
outside. -/
def State.withFetchWord (s : State) (nbits w : Nat) : State := loadWord (tableWord nbits w) s

end Sys2Proof.Machine
end

