-- ==== Sys2Proof/Machine/Assembly.lean ====
section
/-! DEFINITION. The operation listing: the names of the commands (rule R79), the assembler forms (rule R84), the control
surface's token lookup (rule R120) and the pseudo-operations (rule R85). None of it is part of the block (rule R6 (a));
it says which words an environment presents (log entry 16). -/

namespace Sys2Proof.Machine

/-- The eight command names, in the source's order (rule R79). -/
def commandName (k : CommandIndex) : String :=
  match k with
  | 0 => "abc_enable"
  | 1 => "abc_disable"
  | 2 => "read"
  | 3 => "cal_zero"
  | 4 => "cal_span2k"
  | 5 => "reset"
  | 6 => "set_range2k"
  | 7 => "set_range5k"

/-- The index whose name is exactly this text (rules R84, R120). -/
def commandIndex (text : String) : Option CommandIndex :=
  [0, 1, 2, 3, 4, 5, 6, 7].find? fun k => commandName k == text

/-- One line of an operation listing, in the forms of rule R84. -/
inductive AsmLine where
  /-- `SEND <name>`. -/
  | sendName (name : String)
  /-- `SEND <k>`. -/
  | sendIndex (k : Nat)
  /-- `SEND.NOMATCH`, also written `SEND ?`. -/
  | sendNomatch
  /-- `QUERY`. -/
  | query
  /-- `TICK`. -/
  | tick
  /-- `RXB <byte>`, its number already read from `0xHH` or decimal. -/
  | rxb (byte : Nat)
  /-- `RXE`. -/
  | rxe
deriving DecidableEq, Repr

/-- The operation of a line, none for a name that is not in the table or a number out of its range (rule R84). -/
def AsmLine.operation : AsmLine → Option Instr
  | .sendName name => (commandIndex name).map sendOf
  | .sendIndex k => if h : k < 8 then some (sendOf ⟨k, h⟩) else none
  | .sendNomatch => some (.sendNomatch 0)
  | .query => some .query
  | .tick => some .tick
  | .rxb byte => if byte < 256 then some (.rxb (BitVec.ofNat 8 byte)) else none
  | .rxe => some .rxe

/-- The word of a line (rule R84). -/
def AsmLine.word (l : AsmLine) : Option Word := l.operation.map encode

/-- The pseudo-operations (rule R85). -/
inductive Pseudo where
  /-- `RXFRAME b0, ..., bn-1`: one receive notification draining these bytes. -/
  | rxframe (bytes : List Byte)
  /-- `TOKEN "<text>"`: the control surface's lookup. -/
  | token (text : String)
  /-- `POLL`, a synonym for `TICK`. -/
  | poll
deriving DecidableEq, Repr

/-- The lookup of a token: exact, and otherwise unmatched (rules R85, R120). -/
def tokenOperation (text : String) : Instr :=
  match commandIndex text with
  | some k => sendOf k
  | none => .sendNomatch 0

/-- The operations of one receive burst (rules R85, R151). -/
def receiveFrame (bytes : List Byte) : List Instr := bytes.map Instr.rxb ++ [Instr.rxe]

/-- The expansion of a pseudo-operation (rule R85). -/
def Pseudo.expand : Pseudo → List Instr
  | .rxframe bytes => receiveFrame bytes
  | .token text => [tokenOperation text]
  | .poll => [.tick]

end Sys2Proof.Machine
end

