-- ==== Sys2Proof/Safety.lean ====
section
/-! DEFINITION. The terms the claims use: a sequence of operations, the invariant of the block, what each source may be given
back (rule R195), the receive path as the source's own callback, and states that differ only in stale buffer bytes. -/

namespace Sys2Proof.Machine

/-- Several operations performed one after the other (any sequence an environment may present, log entry 11), stopping at the first that answers no next state. -/
def execAll : List Instr → State → Result
  | [], s => .next s
  | i :: is, s =>
    match exec i s with
    | .next t => execAll is t
    | .fault f => .fault f
    | .refused r => .refused r

/-- `k` steps of the block, stopping at a step that answers no next state (rules R55, R61). -/
def runSteps : Nat → State → Result
  | 0, s => .next s
  | k + 1, s =>
    match step s with
    | .next t => runSteps k t
    | .fault f => .fault f
    | .refused r => .refused r

/-- Every entry of the command ROM begins with the start byte and the address byte (rule R80). -/
abbrev State.RomMeetsTableRule (s : State) : Prop := tableMeetsRule s.rom = true

/-- `RXCNT` is an integer from 0 to 10 (rule R31). -/
abbrev State.CountInRange (s : State) : Prop := s.rxcnt ≤ 10

/-- `TEMP` lies in the range -37 to 218 (rule R25), of which its reset value 0 is one. -/
abbrev State.TempInRange (s : State) : Prop := -37 ≤ s.temp.toInt ∧ s.temp.toInt ≤ 218

/-- While no frame has been accepted the reading registers hold their reset values (rules R23, R200). -/
abbrev State.UnreadIsReset (s : State) : Prop := s.rdValid = false → s.co2 = 0 ∧ s.temp = 0 ∧ s.stat = 0

/-- The invariant of the block. -/
abbrev State.Inv (s : State) : Prop :=
  s.RomMeetsTableRule ∧ s.CountInRange ∧ s.TempInRange ∧ s.UnreadIsReset

/-- The block is clear to take the next word: no reset is pending and no fault is recorded (rules R183, R200). -/
abbrev State.Clear (s : State) : Prop := s.resetIn = false ∧ s.running = true

/-- The events of the receive path: a diagnostic or a publish (rules R153, R195). -/
def Event.isReceive : Event → Bool
  | .publish _ _ _ => true
  | .diagChecksumError => true
  | .tx _ => false
  | .sampleReq => false
  | .ack _ => false
  | .status _ _ _ => false

/-- The events that transmit a frame. -/
def Event.isTransmit : Event → Bool
  | .tx _ => true
  | .publish _ _ _ => false
  | .diagChecksumError => false
  | .sampleReq => false
  | .ack _ => false
  | .status _ _ _ => false

/-- What the block may emit on an operation of each source: the column "block returns" of rule R195, with the sample request and
the frame that a transmitted command causes. -/
def mayCause : Source → Event → Bool
  | .controlSurface, .sampleReq => true
  | .controlSurface, .tx _ => true
  | .controlSurface, .ack _ => true
  | .controlSurface, .status _ _ _ => true
  | .controlSurface, .publish _ _ _ => false
  | .controlSurface, .diagChecksumError => false
  | .serialReceiver, e => e.isReceive
  | .pollTimer, .sampleReq => true
  | .pollTimer, .tx _ => true
  | .pollTimer, .ack _ => false
  | .pollTimer, .status _ _ _ => false
  | .pollTimer, .publish _ _ _ => false
  | .pollTimer, .diagChecksumError => false

/-- What rule R121 leaves after `SEND <k>`: a sample request, the composed frame of entry `k` and the acknowledgement are emitted,
in this order, and nothing else changes. -/
def afterSend (k : CommandIndex) (s : State) : State :=
  { s with events := s.events ++ [.sampleReq, .tx (compose s.rom[k.val]), .ack k] }

/-- What rules R130 and R131 leave after a status query: the current reading registers are reported and nothing else changes. -/
def afterStatus (s : State) : State := { s with events := s.events ++ [.status s.co2 s.temp s.stat] }

/-- The receive path as the source's one callback: the bytes of a notification in a buffer of any length, for this invocation
only (rule R153's quotation; decisions D12, D13). -/
def drainCallback (bytes : List Byte) (s : State) : State :=
  if bytes.length = 9 then
    match decodeFrame bytes with
    | .ok r =>
      { s with
        co2 := r.co2Ppm
        temp := r.temperatureC
        stat := r.status
        rdValid := true
        events := s.events ++ [.publish r.co2Ppm r.temperatureC r.status] }
    | .error _ => { s with events := s.events ++ [.diagChecksumError] }
  else s

/-- Two states that agree on everything but the buffer bytes the current burst has not written (rule R30). -/
def SameButStaleBytes (s t : State) : Prop :=
  t = { s with rxbuf := t.rxbuf } ∧ ∀ (i : Nat) (h : i < 9), i < s.rxcnt → s.rxbuf[i] = t.rxbuf[i]

/-- Two outcomes of one kind: next states in the given relation, or the same stop. -/
def OutcomesAgree (rel : State → State → Prop) : Result → Result → Prop
  | .next s, .next t => rel s t
  | .fault f, .fault g => f = g
  | .refused f, .refused g => f = g
  | _, _ => False

end Sys2Proof.Machine
end

