-- ==== Sys2Proof/Certificates/Slice0/Obligations.lean ====
section
/-! DEFINITION. The statements for the provers, in the order of the spec's files: the codec, the encoding, the step and the fault,
reset, the operations, the registers, the receive path, the invariant, the environment and the operation listing. -/

open Sys2Proof Sys2Proof.Machine

/-! ### The codec (40_framecodec.md) -/

/-- R100: the checksum of any sequence of at least 8 bytes is the two's complement, modulo 256, of the sum of bytes 1 to 7. -/
def Obligations.ChecksumNegatesSevenByteSum : Prop :=
  ∀ (f0 f1 f2 f3 f4 f5 f6 f7 : Byte) (rest : List Byte),
    (checksum (f0 :: f1 :: f2 :: f3 :: f4 :: f5 :: f6 :: f7 :: rest)).toNat
      = (256 - (f1.toNat + f2.toNat + f3.toNat + f4.toNat + f5.toNat + f6.toNat + f7.toNat) % 256) % 256

/-- R103 and R101: `Compose` copies the 8 bytes of the payload as they are and appends, at position 8, the checksum over bytes 1 to 7.
The last clause is an inference that R103 marks as its own ("derived: from rule R103 and R80"): by R80, every frame composed from the
command table begins with the start byte. -/
def Obligations.ComposeAppendsChecksum : Prop :=
  (∀ p0 p1 p2 p3 p4 p5 p6 p7 : Byte, ∃ c : Byte,
    (compose #v[p0, p1, p2, p3, p4, p5, p6, p7]).toList = [p0, p1, p2, p3, p4, p5, p6, p7, c]
      ∧ c.toNat = (256 - (p1.toNat + p2.toNat + p3.toNat + p4.toNat + p5.toNat + p6.toNat + p7.toNat) % 256) % 256) ∧
  ∀ k : CommandIndex, (compose (Config.cmdTable k))[0] = 0xFF

/-- R104 with R106 to R108: `Decode` fails on a length other than 9 and on a checksum that does not match, and otherwise yields the
three fields, each with its exact value. -/
def Obligations.DecodeFrameCases : Prop :=
  (∀ b : List Byte, b.length ≠ 9 → decodeFrame b = .error .checksumError) ∧
  ∀ f0 f1 f2 f3 f4 f5 f6 f7 f8 : Byte,
    (f8.toNat ≠ (256 - (f1.toNat + f2.toNat + f3.toNat + f4.toNat + f5.toNat + f6.toNat + f7.toNat) % 256) % 256 →
      decodeFrame [f0, f1, f2, f3, f4, f5, f6, f7, f8] = .error .checksumError) ∧
    (f8.toNat = (256 - (f1.toNat + f2.toNat + f3.toNat + f4.toNat + f5.toNat + f6.toNat + f7.toNat) % 256) % 256 →
      ∃ r, decodeFrame [f0, f1, f2, f3, f4, f5, f6, f7, f8] = .ok r
        ∧ r.co2Ppm.toNat = 256 * f3.toNat + f4.toNat
        ∧ r.temperatureC.toInt = (f5.toNat : Int) - 37
        ∧ r.status = f6)

/-- 40_framecodec.md, the equivalent validity test (an inference the spec draws in R102): a checksum byte matches exactly when bytes 1
to 8 sum to 0 modulo 256. -/
def Obligations.ChecksumMatchesIffZeroSum : Prop :=
  ∀ f0 f1 f2 f3 f4 f5 f6 f7 f8 : Byte,
    f8 = checksum [f0, f1, f2, f3, f4, f5, f6, f7, f8] ↔
      (f1.toNat + f2.toNat + f3.toNat + f4.toNat + f5.toNat + f6.toNat + f7.toNat + f8.toNat) % 256 = 0

/-- 40_framecodec.md, the round trip (R109, derived by the spec): decoding a composed payload succeeds with the payload's fields. -/
def Obligations.DecodeOfComposeReturnsFields : Prop :=
  ∀ p : Payload, ∃ r, decodeFrame (compose p).toList = .ok r
    ∧ r.co2Ppm.toNat = 256 * p[3].toNat + p[4].toNat
    ∧ r.temperatureC.toInt = (p[5].toNat : Int) - 37
    ∧ r.status = p[6]

/-- 40_framecodec.md, error detection (R110, derived by the spec): changing exactly one byte among positions 1 to 8 of a valid frame
always makes `Decode` fail. -/
def Obligations.SingleByteChangeIsDetected : Prop :=
  ∀ (f : Frame) (r : Reading) (i : Nat) (h : i < 9) (v : Byte),
    decodeFrame f.toList = .ok r → 1 ≤ i → v ≠ f[i] → decodeFrame (f.set i v).toList = .error .checksumError

/-- 40_framecodec.md, error detection (R110, derived by the spec): a change of byte 0 has no effect at all, and any change that
keeps the sum of bytes 1 to 8 modulo 256, a swap among them, is not detected. -/
def Obligations.SumPreservingChangeIsNotDetected : Prop :=
  (∀ (f : Frame) (v : Byte), decodeFrame (f.set 0 v).toList = decodeFrame f.toList) ∧
  (∀ (f g : Frame) (r : Reading),
    (f[1].toNat + f[2].toNat + f[3].toNat + f[4].toNat + f[5].toNat + f[6].toNat + f[7].toNat + f[8].toNat) % 256
      = (g[1].toNat + g[2].toNat + g[3].toNat + g[4].toNat + g[5].toNat + g[6].toNat + g[7].toNat + g[8].toNat) % 256 →
    decodeFrame f.toList = .ok r → ∃ r', decodeFrame g.toList = .ok r') ∧
  (∀ (f : Frame) (r : Reading) (i j : Nat) (hi : i < 9) (hj : j < 9), 1 ≤ i → i ≤ 7 → 1 ≤ j → j ≤ 7 →
    decodeFrame f.toList = .ok r → ∃ r', decodeFrame (f.swap i j).toList = .ok r')

/-! ### The encoding (30_encoding.md) -/

/-- 30_encoding.md: decoding the word of any operation gives the operation back, with every operand. -/
def Obligations.DecodeOfEncodeIsSame : Prop :=
  ∀ i : Instr, decode (encode i) = .op i

/-- 30_encoding.md: a word that decodes to an operation is that operation's word, so each legal word has one meaning and no two
share one. -/
def Obligations.EncodeOfDecodeIsSame : Prop :=
  ∀ (w : Word) (i : Instr), decode w = .op i → encode i = w

/-- R71 to R74 and R77: a word put together from its three fields decodes to the operation that R71 to R74 give those fields, and by R77
every word with a reserved `OP` or with a non-zero field that must be zero is rejected under its own name. (R77's count of the words
is ExactlyLegalWordsCount, and what performing a rejected word does is ReservedWordRecordsFault.) -/
def Obligations.FieldsDecideOperation : Prop :=
  ∀ (op sel : BitVec 4) (data : Byte) (w : Word), w = op ++ sel ++ data →
    (∀ k : BitVec 3, op = 0x1 → sel = 0#1 ++ k → data = 0 → decode w = .op (sendOf k.toFin)) ∧
    (∀ k : BitVec 3, op = 0x1 → sel = 1#1 ++ k → data = 0 → decode w = .op (.sendNomatch k)) ∧
    (op = 0x2 → sel = 0 → data = 0 → decode w = .op .query) ∧
    (op = 0x3 → sel = 0 → data = 0 → decode w = .op .tick) ∧
    (op = 0x4 → sel = 0 → decode w = .op (.rxb data)) ∧
    (op = 0x5 → sel = 0 → data = 0 → decode w = .op .rxe) ∧
    (op = 0x1 → data ≠ 0 → decode w = .illegalOp w) ∧
    (op = 0x2 ∨ op = 0x3 ∨ op = 0x5 → sel ≠ 0 ∨ data ≠ 0 → decode w = .illegalOp w) ∧
    (op = 0x4 → sel ≠ 0 → decode w = .illegalOp w) ∧
    (op = 0x0 ∨ 6 ≤ op.toNat → decode w = .illegalOp w)

/-- 30_encoding.md (a count the spec derives in R77): exactly 275 of the 65536 words are legal. -/
def Obligations.ExactlyLegalWordsCount : Prop :=
  ∃ ws : List Word, ws.Nodup ∧ ws.length = 275 ∧ ∀ w, (∃ i, decode w = .op i) ↔ w ∈ ws

/-- 30_encoding.md (derived by the spec in R76): no word belongs to two rows of the opcode table, and the words of the rows are
exactly those the decoder accepts. -/
def Obligations.OpcodeRowsAreDisjointAndComplete : Prop :=
  opcodeTable.Pairwise (fun a b => ∀ w, ¬(a.covers w = true ∧ b.covers w = true)) ∧
  ∀ w, (∃ i, decode w = .op i) ↔ ∃ r ∈ opcodeTable, r.covers w = true

/-- 30_encoding.md section 1: words written out from the encodings decode to the operations they stand for, and reserved ones are
rejected by name. -/
def Obligations.SampleWordsDecode : Prop :=
  decode 0b0001001000000000 = .op .sendRead ∧ decode 0b0001011100000000 = .op .sendSetRange5k ∧
  decode 0b0001110100000000 = .op (.sendNomatch 5) ∧ decode 0b0010000000000000 = .op .query ∧
  decode 0b0011000000000000 = .op .tick ∧ decode 0b0100000011100111 = .op (.rxb 0xE7) ∧
  decode 0b0101000000000000 = .op .rxe ∧ decode 0b0000000000000000 = .illegalOp 0x0000 ∧
  decode 0b0100000100000000 = .illegalOp 0x4100 ∧ decode 0b0110000000000000 = .illegalOp 0x6000

/-! ### The step, the port and the fault (10_state.md, 20_memory.md, 60_exceptions.md) -/

/-- 10_state.md section 3: a step takes the first word at the port and runs the operation it decodes to. -/
def Obligations.StepRunsDecodedOperation : Prop :=
  ∀ (s : State) (w : Word) (rest : List Word) (i : Instr),
    s.Clear → s.port = w :: rest → decode w = .op i → step s = exec i { s with port := rest }

/-- The model's own loading of a word (log entry 15): the very next step runs exactly the loaded instruction. -/
def Obligations.LoadedWordRunsNext : Prop :=
  ∀ (s : State) (nbits w : Nat) (i : Instr), decodeTableWord nbits w = some i →
    step (s.withFetchWord nbits w) = exec i { s with fault := .none, resetIn := false }

/-- The model's choice (log entry 2), read from R40: with nothing presented a step changes nothing. -/
def Obligations.StepWithoutWordChangesNothing : Prop :=
  ∀ s : State, s.Clear → s.port = [] → step s = .next s

/-- R182: performing a word that decodes to no operation records that very word in `FAULT`; no event is emitted and no other register
changes. (That the word is consumed like every other is R21, stated below.) -/
def Obligations.ReservedWordRecordsFault : Prop :=
  ∀ (s : State) (w : Word) (rest : List Word),
    s.Clear → s.port = w :: rest → (∀ i, decode w ≠ .op i) →
      ∃ t, step s = .next t ∧ t = { s with port := t.port, fault := .illegalOp w }

/-- R33 and R183: `FAULT` is none at reset; once it holds `IllegalOp(w)` and no reset comes the block takes no step; no operation clears
it, and reset does. -/
def Obligations.FaultStopsBlockUntilReset : Prop :=
  State.reset.fault = .none ∧
  (∀ (s : State) (w : Word), s.fault = .illegalOp w → s.resetIn = false → step s = .fault (.stuckAfterIllegalOp w)) ∧
  (∀ (i : Instr) (s : State), ∃ t, exec i s = .next t ∧ t.fault = s.fault) ∧
  (∀ s : State, (takeReset s).fault = .none)

/-- R21: each presented word is consumed exactly once, in arrival order, by whatever the step does with it. -/
def Obligations.StepConsumesFirstWordOnly : Prop :=
  ∀ (s : State) (w : Word) (rest : List Word), s.Clear → s.port = w :: rest → ∃ t, step s = .next t ∧ t.port = rest

/-- R55: the words of a sequence of operations, run by the machine step by step, have the effect of the operations performed whole,
one after the other, in the order of arrival. -/
def Obligations.PortRunPerformsOperationsInOrder : Prop :=
  ∀ (is : List Instr) (rest : List Word) (s : State), s.Clear → s.port = is.map encode ++ rest →
    runSteps is.length s = execAll is { s with port := rest }

/-- 60_exceptions.md (R181): no operation stops the block, and none records a fault or touches the inputs. -/
def Obligations.EveryOperationCompletes : Prop :=
  ∀ (i : Instr) (s : State), ∃ t, exec i s = .next t ∧ t.fault = s.fault ∧ t.port = s.port ∧ t.resetIn = s.resetIn

/-! ### Reset (70_reset_and_hazards.md) -/

/-- R200: the registers after reset, at power-on and by a reset of any state, with the ROM unchanged. -/
def Obligations.ResetValues : Prop :=
  (State.reset.co2 = 0 ∧ State.reset.temp = 0 ∧ State.reset.stat = 0 ∧ State.reset.rdValid = false ∧ State.reset.rxcnt = 0
    ∧ State.reset.fault = .none ∧ ∀ k : CommandIndex, State.reset.rom[k.val] = Config.cmdTable k) ∧
  ∀ s : State, (takeReset s).co2 = 0 ∧ (takeReset s).temp = 0 ∧ (takeReset s).stat = 0 ∧ (takeReset s).rdValid = false
    ∧ (takeReset s).rxcnt = 0 ∧ (takeReset s).fault = .none ∧ (takeReset s).rom = s.rom

/-- The model's choice (log entry 3), read from R200: a pending reset is the next step, whatever else is pending and whatever `FAULT`
holds; it serves the request and consumes no word (log entry 4). -/
def Obligations.PendingResetActsFirst : Prop :=
  ∀ s : State, s.resetIn = true → step s = .next (takeReset s) ∧ (takeReset s).resetIn = false ∧ (takeReset s).port = s.port

/-- 70_reset_and_hazards.md (R201, derived by the spec; the buffer's value at reset is the model's, log entry 5): reset erases the
burst in progress, keeps the events already emitted and sends nothing. That it is a step of its own is log entry 3. -/
def Obligations.ResetDiscardsBurst : Prop :=
  ∀ (s : State) (buf : Frame) (n : Nat), s.resetIn = true →
    step { s with rxbuf := buf, rxcnt := n } = step s ∧ ∃ t, step s = .next t ∧ t.events = s.events

/-! ### The operations (41_dispatch.md, 42_response_parser.md, 43_poll.md) -/

/-- R121: the word, the events in order and the unchanged state of every `SEND <k>`, and two of them in a row. -/
def Obligations.SendEmitsSampleFrameAck : Prop :=
  ∀ (k : CommandIndex) (s : State),
    decode (0x1000 + 0x100 * BitVec.ofNat 16 k.val) = .op (sendOf k) ∧
    exec (sendOf k) s
      = .next { s with events := s.events ++ [.sampleReq, .tx (compose s.rom[k.val]), .ack k] } ∧
    ∀ j : CommandIndex, execAll [sendOf k, sendOf j] s
      = .next { s with events := s.events ++ [.sampleReq, .tx (compose s.rom[k.val]), .ack k,
          .sampleReq, .tx (compose s.rom[j.val]), .ack j] }

/-- R122 to R129: each named command has its own word and sends its own table entry, with a frame that begins `FF 01`; every register
keeps its value, `SEND reset` included. -/
def Obligations.NamedCommandsSendTheirEntries : Prop :=
  (decode 0x1000 = .op .sendAbcEnable ∧ decode 0x1100 = .op .sendAbcDisable ∧ decode 0x1200 = .op .sendRead ∧
   decode 0x1300 = .op .sendCalZero ∧ decode 0x1400 = .op .sendCalSpan2k ∧ decode 0x1500 = .op .sendReset ∧
   decode 0x1600 = .op .sendSetRange2k ∧ decode 0x1700 = .op .sendSetRange5k) ∧
  (∀ s : State, exec .sendAbcEnable s = .next (afterSend 0 s) ∧ exec .sendAbcDisable s = .next (afterSend 1 s) ∧
    exec .sendRead s = .next (afterSend 2 s) ∧ exec .sendCalZero s = .next (afterSend 3 s) ∧
    exec .sendCalSpan2k s = .next (afterSend 4 s) ∧ exec .sendReset s = .next (afterSend 5 s) ∧
    exec .sendSetRange2k s = .next (afterSend 6 s) ∧ exec .sendSetRange5k s = .next (afterSend 7 s)) ∧
  ∀ s : State, s.RomMeetsTableRule → ∀ k : CommandIndex, (compose s.rom[k.val])[0] = 0xFF ∧ (compose s.rom[k.val])[1] = 0x01

/-- R130: `SEND.NOMATCH`, whatever its ignored bits, answers the current registers and changes nothing else; right after a `SEND` it
still answers the old reading, and before the first accepted frame it answers zeros. -/
def Obligations.NomatchAnswersStatus : Prop :=
  (∀ sel : BitVec 3, decode (0x1800 + 0x100 * sel.zeroExtend 16) = .op (.sendNomatch sel)) ∧
  ∀ (sel : BitVec 3) (s : State),
    exec (.sendNomatch sel) s = .next { s with events := s.events ++ [.status s.co2 s.temp s.stat] } ∧
    (∀ k : CommandIndex, execAll [sendOf k, .sendNomatch sel] s
      = .next { s with events := s.events ++ [.sampleReq, .tx (compose s.rom[k.val]), .ack k, .status s.co2 s.temp s.stat] }) ∧
    (s.Inv → s.rdValid = false → exec (.sendNomatch sel) s = .next { s with events := s.events ++ [.status 0 0 0] })

/-- R131: `QUERY` answers the current registers and changes nothing else, has the effect of `SEND.NOMATCH`, gives equal answers twice
in a row, and answers zeros after reset. -/
def Obligations.QueryAnswersStatus : Prop :=
  decode 0x2000 = .op .query ∧
  (∀ (s : State) (sel : BitVec 3),
    exec .query s = .next { s with events := s.events ++ [.status s.co2 s.temp s.stat] } ∧
    exec .query s = exec (.sendNomatch sel) s ∧
    execAll [.query, .query] s
      = .next { s with events := s.events ++ [.status s.co2 s.temp s.stat, .status s.co2 s.temp s.stat] }) ∧
  exec .query State.reset = .next { State.reset with events := [.status 0 0 0] }

/-- R170: `TICK` emits a sample request and the frame of the `read` entry, with no acknowledgement and no other change, and a second
tick does not wait. -/
def Obligations.TickTransmitsReadFrame : Prop :=
  decode 0x3000 = .op .tick ∧
  ∀ s : State,
    exec .tick s = .next { s with events := s.events ++ [.sampleReq, .tx (compose s.rom[2])] } ∧
    execAll [.tick, .tick] s
      = .next { s with events := s.events ++ [.sampleReq, .tx (compose s.rom[2]), .sampleReq, .tx (compose s.rom[2])] }

/-- 43_poll.md (R172, derived by the spec): `SEND read` does what `TICK` does and then emits `ACK(2)`, and a query right after either
answers the old reading. -/
def Obligations.TickIsSendReadWithoutAck : Prop :=
  ∀ s : State, ∃ t, exec .tick s = .next t ∧
    exec .sendRead s = .next { t with events := t.events ++ [.ack 2] } ∧
    execAll [.tick, .query] s = .next { t with events := t.events ++ [.status s.co2 s.temp s.stat] } ∧
    execAll [.sendRead, .query] s = .next { t with events := t.events ++ [.ack 2, .status s.co2 s.temp s.stat] }

/-- R150: `RXB` stores the byte while fewer than 9 are held, counts up to 10 and emits nothing; once a tenth byte has come the burst is
dropped by its `RXE` whatever follows. -/
def Obligations.RxbStoresAndCounts : Prop :=
  (∀ b : Byte, decode (0x4000 + b.zeroExtend 16) = .op (.rxb b)) ∧
  ∀ (b : Byte) (s : State),
    (∀ h : s.rxcnt < 9, exec (.rxb b) s = .next { s with rxbuf := s.rxbuf.set s.rxcnt b h, rxcnt := s.rxcnt + 1 }) ∧
    (s.rxcnt = 9 → exec (.rxb b) s = .next { s with rxcnt := 10 }) ∧
    (s.rxcnt = 10 → exec (.rxb b) s = .next s) ∧
    (s.rxcnt = 9 ∨ s.rxcnt = 10 → ∀ bs : List Byte, execAll (receiveFrame (b :: bs)) s = .next { s with rxcnt := 0 })

/-- R153: the three outcomes of `RXE`, each with the whole next state. -/
def Obligations.RxeOutcomes : Prop :=
  decode 0x5000 = .op .rxe ∧
  ∀ s : State,
    (s.rxcnt = 0 → exec .rxe s = .next s) ∧
    (s.rxcnt ≠ 9 → exec .rxe s = .next { s with rxcnt := 0 }) ∧
    (s.rxcnt = 9 → decodeFrame s.rxbuf.toList = .error .checksumError →
      exec .rxe s = .next { s with rxcnt := 0, events := s.events ++ [.diagChecksumError] }) ∧
    (∀ r : Reading, s.rxcnt = 9 → decodeFrame s.rxbuf.toList = .ok r →
      exec .rxe s = .next { s with
        rxcnt := 0
        co2 := r.co2Ppm
        temp := r.temperatureC
        stat := r.status
        rdValid := true
        events := s.events ++ [.publish r.co2Ppm r.temperatureC r.status] })

/-- 41_dispatch.md (R133, derived by the spec): one transmit and one sample request per matched command, none per query. -/
def Obligations.SideEffectCounts : Prop :=
  (∀ (k : CommandIndex) (s : State), ∃ t, exec (sendOf k) s = .next t ∧
    t.events.countP Event.isTransmit = s.events.countP Event.isTransmit + 1 ∧
    t.events.count .sampleReq = s.events.count .sampleReq + 1) ∧
  (∀ (i : Instr) (sel : BitVec 3) (s : State), i = .query ∨ i = .sendNomatch sel → ∃ t, exec i s = .next t ∧
    t.events.countP Event.isTransmit = s.events.countP Event.isTransmit ∧
    t.events.count .sampleReq = s.events.count .sampleReq)

/-- 20_memory.md (R58, derived by the spec): a second `RXE` adds nothing, and two queries in a row answer the same, the first with the
registers before it and the second with the same values. -/
def Obligations.RxeAndQueryAreIdempotent : Prop :=
  ∀ s : State, execAll [.rxe, .rxe] s = exec .rxe s ∧
    ∃ t, exec .query s = .next t ∧ t = { s with events := s.events ++ [.status s.co2 s.temp s.stat] } ∧
      exec .query t = .next { t with events := t.events ++ [.status s.co2 s.temp s.stat] }

/-- 20_memory.md (R57, derived by the spec): the frame of every operation outside the receive path. It completes, and nothing but the
event log changes. -/
def Obligations.OtherSourcesOnlyEmit : Prop :=
  ∀ (i : Instr) (s : State), i.isReceive = false → ∃ t, exec i s = .next t ∧ t = { s with events := t.events }

/-- 42_response_parser.md: the frame of the receive path. `RXB` changes the count and the one buffer byte it stores to, and `RXE`
changes the count, the reading with its flag, and the events. -/
def Obligations.ReceiveOperationsFrame : Prop :=
  (∀ (b : Byte) (s : State), ∃ t, exec (.rxb b) s = .next t ∧ t = { s with rxbuf := t.rxbuf, rxcnt := t.rxcnt } ∧
    ∀ (j : Nat) (h : j < 9), j ≠ s.rxcnt → t.rxbuf[j] = s.rxbuf[j]) ∧
  (∀ s : State, ∃ t, exec .rxe s = .next t ∧
    t = { s with rxcnt := 0, co2 := t.co2, temp := t.temp, stat := t.stat, rdValid := t.rdValid, events := t.events })

/-! ### The registers (10_state.md) -/

/-- R23: `RD_VALID` is 0 at reset, set by every accepting `RXE`, cleared by reset alone, and read by no operation. -/
def Obligations.ValidFlagLife : Prop :=
  State.reset.rdValid = false ∧
  (∀ (s : State) (r : Reading), s.rxcnt = 9 → decodeFrame s.rxbuf.toList = .ok r → ∃ t, exec .rxe s = .next t ∧ t.rdValid = true) ∧
  (∀ s t : State, step s = .next t → s.resetIn = false → s.rdValid = true → t.rdValid = true) ∧
  (∀ s : State, (takeReset s).rdValid = false) ∧
  (∀ (i : Instr) (s : State) (v : Bool), ∃ t u, exec i s = .next t ∧ exec i { s with rdValid := v } = .next u ∧
    t = { u with rdValid := t.rdValid })

/-- R24, R25 and R26: the reading registers are 0 at reset, and only an `RXE` whose burst is a 9-byte frame with a matching checksum
writes them, with the frame's field values. -/
def Obligations.ReadingRegisterValues : Prop :=
  (State.reset.co2 = 0 ∧ State.reset.temp = 0 ∧ State.reset.stat = 0) ∧
  (∀ (f0 f1 f2 f3 f4 f5 f6 f7 f8 : Byte) (s : State),
    s.rxcnt = 9 → s.rxbuf = #v[f0, f1, f2, f3, f4, f5, f6, f7, f8] →
    (f1.toNat + f2.toNat + f3.toNat + f4.toNat + f5.toNat + f6.toNat + f7.toNat + f8.toNat) % 256 = 0 →
    ∃ t, exec .rxe s = .next t ∧ t.co2.toNat = 256 * f3.toNat + f4.toNat ∧ t.temp.toInt = (f5.toNat : Int) - 37 ∧
      -37 ≤ t.temp.toInt ∧ t.temp.toInt ≤ 218 ∧ t.stat = f6) ∧
  (∀ (i : Instr) (s : State),
    i ≠ .rxe ∨ s.rxcnt ≠ 9 ∨ decodeFrame s.rxbuf.toList = .error .checksumError →
    ∃ t, exec i s = .next t ∧ t.co2 = s.co2 ∧ t.temp = s.temp ∧ t.stat = s.stat)

/-- R27: in any step that is not a reset, the three reading registers are all kept, or all taken from one accepted frame. -/
def Obligations.ReadingWrittenAsWhole : Prop :=
  ∀ s t : State, step s = .next t → s.resetIn = false →
    (t.co2 = s.co2 ∧ t.temp = s.temp ∧ t.stat = s.stat) ∨
    ∃ r, s.rxcnt = 9 ∧ decodeFrame s.rxbuf.toList = .ok r ∧ t.co2 = r.co2Ppm ∧ t.temp = r.temperatureC ∧ t.stat = r.status

/-- R28: `SEND` of any select, `TICK`, `QUERY`, `RXB` and an `RXE` that does not accept leave the reading registers unchanged. -/
def Obligations.ReadingKeptByOtherOperations : Prop :=
  ∀ (k : CommandIndex) (sel : BitVec 3) (b : Byte) (s : State),
    (∀ i ∈ [sendOf k, .sendNomatch sel, .tick, .query, .rxb b], ∃ t, exec i s = .next t ∧ t.reading = s.reading) ∧
    (s.rxcnt ≠ 9 ∨ decodeFrame s.rxbuf.toList = .error .checksumError → ∃ t, exec .rxe s = .next t ∧ t.reading = s.reading)

/-- R31: the count is 0 at reset, goes up by one to at most 10 with each `RXB`, is cleared by every `RXE`, and is untouched by every other
operation. -/
def Obligations.CountSaturatesAndClears : Prop :=
  State.reset.rxcnt = 0 ∧
  (∀ (b : Byte) (s : State), s.CountInRange → ∃ t, exec (.rxb b) s = .next t ∧ t.rxcnt = min (s.rxcnt + 1) 10) ∧
  (∀ s : State, ∃ t, exec .rxe s = .next t ∧ t.rxcnt = 0) ∧
  (∀ (i : Instr) (s : State), i.isReceive = false → ∃ t, exec i s = .next t ∧ t.rxcnt = s.rxcnt)

/-- R32: the ROM holds the command table of the configuration at reset, and no step, reset included, writes it. -/
def Obligations.RomIsNeverWritten : Prop :=
  (∀ (k : CommandIndex) (i : Nat) (h : i < 8), State.reset.rom[k.val][i] = (Config.cmdTable k)[i]) ∧
  ∀ s t : State, step s = .next t → t.rom = s.rom

/-- R80: every entry of the command table begins with the start byte and the address byte, whatever its open bytes are. -/
def Obligations.CommandTableBeginsWithStartAndAddress : Prop :=
  ∀ k : CommandIndex, (Config.cmdTable k)[0] = 0xFF ∧ (Config.cmdTable k)[1] = 0x01

/-! ### The receive path over whole bursts (42_response_parser.md) -/

/-- R154: a burst of any length other than 9 is dropped: no event, and no change but to the burst's own buffer. -/
def Obligations.WrongLengthBurstIsDropped : Prop :=
  ∀ (s : State) (bs : List Byte), s.rxcnt = 0 → bs.length ≠ 9 →
    ∃ buf, execAll (receiveFrame bs) s = .next { s with rxbuf := buf, rxcnt := 0 }

/-- R155: a 9-byte burst with a wrong checksum leaves the reading registers and `RD_VALID` unchanged. R153: it emits
`DIAG(ChecksumError)` and no other event. (R153's other cases are RxeOutcomes.) -/
def Obligations.CorruptBurstLeavesReading : Prop :=
  ∀ (s : State) (bs : List Byte), s.rxcnt = 0 → bs.length = 9 → decodeFrame bs = .error .checksumError →
    ∃ t, execAll (receiveFrame bs) s = .next t ∧ t.reading = s.reading ∧ t.rdValid = s.rdValid
      ∧ t.events = s.events ++ [.diagChecksumError]

/-- 42_response_parser.md (R156, derived by the spec): a 9-byte frame that comes as two bursts is lost whole. -/
def Obligations.FragmentedFrameIsLost : Prop :=
  ∀ (s : State) (a b : List Byte), s.rxcnt = 0 → a.length + b.length = 9 → 1 ≤ a.length → a.length ≤ 8 →
    ∃ buf, execAll (receiveFrame a ++ receiveFrame b) s = .next { s with rxbuf := buf }

/-- 42_response_parser.md (R158, derived by the spec): every frame that the block composes is accepted when it is received as one
burst, whatever its payload. -/
def Obligations.ComposedFrameIsAccepted : Prop :=
  ∀ (p : Payload) (s : State), s.rxcnt = 0 → ∃ t, execAll (receiveFrame (compose p).toList) s = .next t ∧
    t.co2.toNat = 256 * p[3].toNat + p[4].toNat ∧ t.temp.toInt = (p[5].toNat : Int) - 37 ∧ t.stat = p[6] ∧
    t.rdValid = true ∧ t.events = s.events ++ [.publish t.co2 t.temp t.stat]

/-- 42_response_parser.md and decisions D12 and D13: splitting the source's receive callback into one `RXB` per byte and one `RXE`, with a
buffer of 9 bytes and a count that saturates, gives for every burst exactly what the callback with an unbounded buffer gives. -/
def Obligations.BurstRefinesReceiveCallback : Prop :=
  ∀ (s : State) (bs : List Byte), s.rxcnt = 0 →
    ∃ t, execAll (receiveFrame bs) s = .next t ∧ { t with rxbuf := s.rxbuf } = drainCallback bs s

/-- 42_response_parser.md (R152, derived by the spec): operations of the other sources between those of a burst change nothing of its
outcome. For every sequence, the receive path ends as it does with the other operations left out, and its events are the same. -/
def Obligations.BurstIgnoresOtherSources : Prop :=
  ∀ (ops : List Instr) (s : State), ∃ t u,
    execAll ops s = .next t ∧ execAll (ops.filter Instr.isReceive) s = .next u ∧
    t.reading = u.reading ∧ t.rdValid = u.rdValid ∧ t.rxbuf = u.rxbuf ∧ t.rxcnt = u.rxcnt ∧
    t.events.filter Event.isReceive = u.events.filter Event.isReceive

/-- 41_dispatch.md (R134, derived by the spec): after any operations but `RXE`, a query answers the reading from before them. -/
def Obligations.QueryAnswersStaleReading : Prop :=
  ∀ (ops : List Instr) (s : State), .rxe ∉ ops →
    ∃ t, execAll (ops ++ [.query]) s = .next t ∧ t.events.getLast? = some (.status s.co2 s.temp s.stat)

/-! ### The invariant and unobservable state -/

/-- The invariant (`State.Inv`: R80's table rule, R31's range, R25's range, zeros before the first accepted frame) holds at reset. -/
def Obligations.InvariantHoldsAtReset : Prop := State.reset.Inv

/-- Every step from every state keeps the invariant, reset and the recording of a fault among them. -/
def Obligations.StepKeepsInvariant : Prop :=
  ∀ s t : State, s.Inv → step s = .next t → t.Inv

/-- What the environment does to the inputs (the model's own form of R40 and R200, log entries 1 and 3) keeps the invariant. -/
def Obligations.InputsKeepInvariant : Prop :=
  ∀ (s : State) (w : Word) (n v : Nat), s.Inv → (s.present w).Inv ∧ s.assertReset.Inv ∧ (s.withFetchWord n v).Inv

/-- 70_reset_and_hazards.md (R203, derived by the spec): from reset, whatever ran, as long as no frame has been accepted a query answers
zeros. -/
def Obligations.QueryBeforeFirstFrameAnswersZeros : Prop :=
  ∀ (ops : List Instr) (t : State), execAll ops State.reset = .next t → t.rdValid = false →
    exec .query t = .next { t with events := t.events ++ [.status 0 0 0] }

/-- 10_state.md (R30; the conclusion is one the spec derives): buffer bytes that the current burst has not written, its contents at reset
among them (log entry 5), are never observed. Two states that differ only there step alike, with equal events, and stay so. -/
def Obligations.StaleBufferBytesAreUnobservable : Prop :=
  ∀ s t : State, SameButStaleBytes s t → OutcomesAgree SameButStaleBytes (step s) (step t)

/-! ### What reaches the environment (60_exceptions.md) -/

/-- 60_exceptions.md section 4: an operation only appends events, and only such as its source may cause: acknowledgements and status
replies for the control surface, diagnostics and publishes for the serial receiver, nothing back to the poll timer. -/
def Obligations.EventsStayWithinSourceTable : Prop :=
  ∀ (i : Instr) (s : State), ∃ t es, exec i s = .next t ∧ t.events = s.events ++ es ∧ ∀ e ∈ es, mayCause i.source e = true

/-- 30_encoding.md section 3 with 40_framecodec.md: every frame a step transmits begins `FF 01` and carries a matching checksum, in every
state whose ROM meets R80. -/
def Obligations.TransmittedFramesAreWellFormed : Prop :=
  ∀ s t : State, s.RomMeetsTableRule → step s = .next t →
    ∃ es, t.events = s.events ++ es ∧ ∀ f : Frame, .tx f ∈ es → f[0] = 0xFF ∧ f[1] = 0x01 ∧
      (f[1].toNat + f[2].toNat + f[3].toNat + f[4].toNat + f[5].toNat + f[6].toNat + f[7].toNat + f[8].toNat) % 256 = 0

/-! ### The operation listing (30_encoding.md section 4) -/

/-- 30_encoding.md section 4: the words of the assembler forms, with the eight names and the numbers in their ranges. -/
def Obligations.AssemblerFormsHaveTheirWords : Prop :=
  ((AsmLine.sendName "abc_enable").word = some 0x1000 ∧ (AsmLine.sendName "abc_disable").word = some 0x1100 ∧
   (AsmLine.sendName "read").word = some 0x1200 ∧ (AsmLine.sendName "cal_zero").word = some 0x1300 ∧
   (AsmLine.sendName "cal_span2k").word = some 0x1400 ∧ (AsmLine.sendName "reset").word = some 0x1500 ∧
   (AsmLine.sendName "set_range2k").word = some 0x1600 ∧ (AsmLine.sendName "set_range5k").word = some 0x1700) ∧
  (∀ k < 8, (AsmLine.sendIndex k).word = some (0x1000 + 0x100 * BitVec.ofNat 16 k)) ∧
  AsmLine.sendNomatch.word = some 0x1800 ∧ AsmLine.query.word = some 0x2000 ∧ AsmLine.tick.word = some 0x3000 ∧
  (∀ b < 256, (AsmLine.rxb b).word = some (0x4000 + BitVec.ofNat 16 b)) ∧ AsmLine.rxe.word = some 0x5000

/-- 30_encoding.md section 4 (R85): the expansions of the pseudo-operations, with the token lookup exact and otherwise unmatched. That an
unmatched token is the operation with `SEL[2:0] = 0` is R84's word 0x1800 for `SEND.NOMATCH`; that it is not `QUERY`, which R120 allows
as well, is log entry 16. -/
def Obligations.PseudoOperationsExpand : Prop :=
  (∀ bs : List Byte, (Pseudo.rxframe bs).expand = bs.map Instr.rxb ++ [.rxe]) ∧
  (∀ k : CommandIndex, (Pseudo.token (commandName k)).expand = [sendOf k]) ∧
  (∀ text : String, (∀ k, text ≠ commandName k) → (Pseudo.token text).expand = [.sendNomatch 0]) ∧
  Pseudo.poll.expand = [.tick]
end

