-- ==== Sys2Proof/Laws/Codec.lean ====
section
/-! SUPPORT. The codec's functions said once: the checksum as an exact number, `Compose` and `Decode` by their cases, and a frame
or a payload taken apart into its bytes. -/

namespace Sys2Proof.Machine

/-- The checksum byte as a number. -/
theorem checksum_toNat (f : List Byte) : (checksum f).toNat = (256 - sliceSum f 1 7 % 256) % 256 := by
  have h : Config.cksumLo = 1 ∧ Config.cksumHi = 7 := ⟨rfl, rfl⟩
  simp only [checksum, h.1, h.2, BitVec.toNat_ofNat]
  omega

theorem compose_toList (p : Payload) : (compose p).toList = p.toList ++ [checksum p.toList] := by
  simp [compose, Vector.toList]

/-- `Decode` accepts exactly the 9-byte sequences with a matching checksum, and yields their reading. -/
theorem decodeFrame_ok_iff (b : List Byte) (r : Reading) :
    decodeFrame b = .ok r ↔ b.length = 9 ∧ byteAt b 8 = checksum b ∧ r = readingOf b := by
  unfold decodeFrame
  split
  · next h => exact ⟨fun h' => (nomatch h'), fun h' => absurd h'.1 h⟩
  · next h =>
    split
    · next h2 => exact ⟨fun h' => (nomatch h'), fun h' => absurd h'.2.1 h2⟩
    · next h2 =>
      constructor
      · intro h'
        exact ⟨not_not.mp h, not_not.mp h2, by injection h' with h'; exact h'.symm⟩
      · rintro ⟨-, -, rfl⟩
        rfl

/-- `Decode` rejects exactly the sequences of another length or with another checksum byte. -/
theorem decodeFrame_error_iff (b : List Byte) :
    decodeFrame b = .error .checksumError ↔ b.length ≠ 9 ∨ byteAt b 8 ≠ checksum b := by
  unfold decodeFrame
  split
  · next h => exact ⟨fun _ => .inl h, fun _ => rfl⟩
  · next h =>
    split
    · next h2 => exact ⟨fun _ => .inr h2, fun _ => rfl⟩
    · next h2 => exact ⟨fun h' => (nomatch h'), fun h' => (h'.elim h h2).elim⟩

theorem frame_bytes (f : Frame) : ∃ f0 f1 f2 f3 f4 f5 f6 f7 f8, f = #v[f0, f1, f2, f3, f4, f5, f6, f7, f8] :=
  ⟨f[0], f[1], f[2], f[3], f[4], f[5], f[6], f[7], f[8], by
    ext i hi
    match i, hi with
    | 0, _ | 1, _ | 2, _ | 3, _ | 4, _ | 5, _ | 6, _ | 7, _ | 8, _ => rfl⟩

theorem payload_bytes (p : Payload) : ∃ p0 p1 p2 p3 p4 p5 p6 p7, p = #v[p0, p1, p2, p3, p4, p5, p6, p7] :=
  ⟨p[0], p[1], p[2], p[3], p[4], p[5], p[6], p[7], by
    ext i hi
    match i, hi with
    | 0, _ | 1, _ | 2, _ | 3, _ | 4, _ | 5, _ | 6, _ | 7, _ => rfl⟩

/-- The sum a checksum covers, for a sequence given byte by byte. -/
theorem sliceSum_checked (f0 f1 f2 f3 f4 f5 f6 f7 : Byte) (rest : List Byte) :
    sliceSum (f0 :: f1 :: f2 :: f3 :: f4 :: f5 :: f6 :: f7 :: rest) 1 7
      = f1.toNat + (f2.toNat + (f3.toNat + (f4.toNat + (f5.toNat + (f6.toNat + f7.toNat))))) := by
  simp [sliceSum]

@[simp] theorem co2Field_toNat (hi lo : Byte) : (co2Field hi lo).toNat = 256 * hi.toNat + lo.toNat := by
  have := hi.isLt
  have := lo.isLt
  simp only [co2Field, BitVec.toNat_ofNat]
  omega

@[simp] theorem temperatureField_toInt (b : Byte) : (temperatureField b).toInt = (b.toNat : Int) - 37 := by
  have := b.isLt
  rw [temperatureField, BitVec.toInt_ofInt, Int.bmod_def]
  simp only [Config.tempOffset]
  split <;> omega

end Sys2Proof.Machine
end

