-- ==== Sys2Proof/Laws/State.lean ====
section
/-! SUPPORT. One lemma per field per update of the state, so that no proof unfolds a record update. -/

namespace Sys2Proof.Machine

@[simp] theorem emit_co2 (s : State) (es : List Event) : (s.emit es).co2 = s.co2 := rfl
@[simp] theorem emit_temp (s : State) (es : List Event) : (s.emit es).temp = s.temp := rfl
@[simp] theorem emit_stat (s : State) (es : List Event) : (s.emit es).stat = s.stat := rfl
@[simp] theorem emit_rdValid (s : State) (es : List Event) : (s.emit es).rdValid = s.rdValid := rfl
@[simp] theorem emit_rxbuf (s : State) (es : List Event) : (s.emit es).rxbuf = s.rxbuf := rfl
@[simp] theorem emit_rxcnt (s : State) (es : List Event) : (s.emit es).rxcnt = s.rxcnt := rfl
@[simp] theorem emit_rom (s : State) (es : List Event) : (s.emit es).rom = s.rom := rfl
@[simp] theorem emit_fault (s : State) (es : List Event) : (s.emit es).fault = s.fault := rfl
@[simp] theorem emit_port (s : State) (es : List Event) : (s.emit es).port = s.port := rfl
@[simp] theorem emit_resetIn (s : State) (es : List Event) : (s.emit es).resetIn = s.resetIn := rfl
@[simp] theorem emit_events (s : State) (es : List Event) : (s.emit es).events = s.events ++ es := rfl

@[simp] theorem writeReading_co2 (s : State) (r : Reading) : (s.writeReading r).co2 = r.co2Ppm := rfl
@[simp] theorem writeReading_temp (s : State) (r : Reading) : (s.writeReading r).temp = r.temperatureC := rfl
@[simp] theorem writeReading_stat (s : State) (r : Reading) : (s.writeReading r).stat = r.status := rfl
@[simp] theorem writeReading_rdValid (s : State) (r : Reading) : (s.writeReading r).rdValid = s.rdValid := rfl
@[simp] theorem writeReading_rxbuf (s : State) (r : Reading) : (s.writeReading r).rxbuf = s.rxbuf := rfl
@[simp] theorem writeReading_rxcnt (s : State) (r : Reading) : (s.writeReading r).rxcnt = s.rxcnt := rfl
@[simp] theorem writeReading_rom (s : State) (r : Reading) : (s.writeReading r).rom = s.rom := rfl
@[simp] theorem writeReading_fault (s : State) (r : Reading) : (s.writeReading r).fault = s.fault := rfl
@[simp] theorem writeReading_port (s : State) (r : Reading) : (s.writeReading r).port = s.port := rfl
@[simp] theorem writeReading_resetIn (s : State) (r : Reading) : (s.writeReading r).resetIn = s.resetIn := rfl
@[simp] theorem writeReading_events (s : State) (r : Reading) : (s.writeReading r).events = s.events := rfl

@[simp] theorem markValid_co2 (s : State) : (s.markValid).co2 = s.co2 := rfl
@[simp] theorem markValid_temp (s : State) : (s.markValid).temp = s.temp := rfl
@[simp] theorem markValid_stat (s : State) : (s.markValid).stat = s.stat := rfl
@[simp] theorem markValid_rdValid (s : State) : (s.markValid).rdValid = true := rfl
@[simp] theorem markValid_rxbuf (s : State) : (s.markValid).rxbuf = s.rxbuf := rfl
@[simp] theorem markValid_rxcnt (s : State) : (s.markValid).rxcnt = s.rxcnt := rfl
@[simp] theorem markValid_rom (s : State) : (s.markValid).rom = s.rom := rfl
@[simp] theorem markValid_fault (s : State) : (s.markValid).fault = s.fault := rfl
@[simp] theorem markValid_port (s : State) : (s.markValid).port = s.port := rfl
@[simp] theorem markValid_resetIn (s : State) : (s.markValid).resetIn = s.resetIn := rfl
@[simp] theorem markValid_events (s : State) : (s.markValid).events = s.events := rfl

@[simp] theorem acceptReading_co2 (s : State) (r : Reading) : (acceptReading r s).co2 = r.co2Ppm := rfl
@[simp] theorem acceptReading_temp (s : State) (r : Reading) : (acceptReading r s).temp = r.temperatureC := rfl
@[simp] theorem acceptReading_stat (s : State) (r : Reading) : (acceptReading r s).stat = r.status := rfl
@[simp] theorem acceptReading_rdValid (s : State) (r : Reading) : (acceptReading r s).rdValid = true := rfl
@[simp] theorem acceptReading_rxbuf (s : State) (r : Reading) : (acceptReading r s).rxbuf = s.rxbuf := rfl
@[simp] theorem acceptReading_rxcnt (s : State) (r : Reading) : (acceptReading r s).rxcnt = s.rxcnt := rfl
@[simp] theorem acceptReading_rom (s : State) (r : Reading) : (acceptReading r s).rom = s.rom := rfl
@[simp] theorem acceptReading_fault (s : State) (r : Reading) : (acceptReading r s).fault = s.fault := rfl
@[simp] theorem acceptReading_port (s : State) (r : Reading) : (acceptReading r s).port = s.port := rfl
@[simp] theorem acceptReading_resetIn (s : State) (r : Reading) : (acceptReading r s).resetIn = s.resetIn := rfl
@[simp] theorem acceptReading_events (s : State) (r : Reading) : (acceptReading r s).events = s.events ++ [.publish r.co2Ppm r.temperatureC r.status] := rfl

@[simp] theorem raiseIllegalOp_co2 (s : State) (w : Word) : (raiseIllegalOp w s).co2 = s.co2 := rfl
@[simp] theorem raiseIllegalOp_temp (s : State) (w : Word) : (raiseIllegalOp w s).temp = s.temp := rfl
@[simp] theorem raiseIllegalOp_stat (s : State) (w : Word) : (raiseIllegalOp w s).stat = s.stat := rfl
@[simp] theorem raiseIllegalOp_rdValid (s : State) (w : Word) : (raiseIllegalOp w s).rdValid = s.rdValid := rfl
@[simp] theorem raiseIllegalOp_rxbuf (s : State) (w : Word) : (raiseIllegalOp w s).rxbuf = s.rxbuf := rfl
@[simp] theorem raiseIllegalOp_rxcnt (s : State) (w : Word) : (raiseIllegalOp w s).rxcnt = s.rxcnt := rfl
@[simp] theorem raiseIllegalOp_rom (s : State) (w : Word) : (raiseIllegalOp w s).rom = s.rom := rfl
@[simp] theorem raiseIllegalOp_fault (s : State) (w : Word) : (raiseIllegalOp w s).fault = .illegalOp w := rfl
@[simp] theorem raiseIllegalOp_port (s : State) (w : Word) : (raiseIllegalOp w s).port = s.port := rfl
@[simp] theorem raiseIllegalOp_resetIn (s : State) (w : Word) : (raiseIllegalOp w s).resetIn = s.resetIn := rfl
@[simp] theorem raiseIllegalOp_events (s : State) (w : Word) : (raiseIllegalOp w s).events = s.events := rfl

@[simp] theorem takeReset_co2 (s : State) : (takeReset s).co2 = 0 := rfl
@[simp] theorem takeReset_temp (s : State) : (takeReset s).temp = 0 := rfl
@[simp] theorem takeReset_stat (s : State) : (takeReset s).stat = 0 := rfl
@[simp] theorem takeReset_rdValid (s : State) : (takeReset s).rdValid = false := rfl
@[simp] theorem takeReset_rxbuf (s : State) : (takeReset s).rxbuf = State.reset.rxbuf := rfl
@[simp] theorem takeReset_rxcnt (s : State) : (takeReset s).rxcnt = 0 := rfl
@[simp] theorem takeReset_rom (s : State) : (takeReset s).rom = s.rom := rfl
@[simp] theorem takeReset_fault (s : State) : (takeReset s).fault = .none := rfl
@[simp] theorem takeReset_port (s : State) : (takeReset s).port = s.port := rfl
@[simp] theorem takeReset_resetIn (s : State) : (takeReset s).resetIn = false := rfl
@[simp] theorem takeReset_events (s : State) : (takeReset s).events = s.events := rfl

@[simp] theorem present_co2 (s : State) (w : Word) : (s.present w).co2 = s.co2 := rfl
@[simp] theorem present_temp (s : State) (w : Word) : (s.present w).temp = s.temp := rfl
@[simp] theorem present_stat (s : State) (w : Word) : (s.present w).stat = s.stat := rfl
@[simp] theorem present_rdValid (s : State) (w : Word) : (s.present w).rdValid = s.rdValid := rfl
@[simp] theorem present_rxbuf (s : State) (w : Word) : (s.present w).rxbuf = s.rxbuf := rfl
@[simp] theorem present_rxcnt (s : State) (w : Word) : (s.present w).rxcnt = s.rxcnt := rfl
@[simp] theorem present_rom (s : State) (w : Word) : (s.present w).rom = s.rom := rfl
@[simp] theorem present_fault (s : State) (w : Word) : (s.present w).fault = s.fault := rfl
@[simp] theorem present_port (s : State) (w : Word) : (s.present w).port = s.port ++ [w] := rfl
@[simp] theorem present_resetIn (s : State) (w : Word) : (s.present w).resetIn = s.resetIn := rfl
@[simp] theorem present_events (s : State) (w : Word) : (s.present w).events = s.events := rfl

@[simp] theorem assertReset_co2 (s : State) : (s.assertReset).co2 = s.co2 := rfl
@[simp] theorem assertReset_temp (s : State) : (s.assertReset).temp = s.temp := rfl
@[simp] theorem assertReset_stat (s : State) : (s.assertReset).stat = s.stat := rfl
@[simp] theorem assertReset_rdValid (s : State) : (s.assertReset).rdValid = s.rdValid := rfl
@[simp] theorem assertReset_rxbuf (s : State) : (s.assertReset).rxbuf = s.rxbuf := rfl
@[simp] theorem assertReset_rxcnt (s : State) : (s.assertReset).rxcnt = s.rxcnt := rfl
@[simp] theorem assertReset_rom (s : State) : (s.assertReset).rom = s.rom := rfl
@[simp] theorem assertReset_fault (s : State) : (s.assertReset).fault = s.fault := rfl
@[simp] theorem assertReset_port (s : State) : (s.assertReset).port = s.port := rfl
@[simp] theorem assertReset_resetIn (s : State) : (s.assertReset).resetIn = true := rfl
@[simp] theorem assertReset_events (s : State) : (s.assertReset).events = s.events := rfl

@[simp] theorem loadWord_co2 (s : State) (w : Word) : (loadWord w s).co2 = s.co2 := rfl
@[simp] theorem loadWord_temp (s : State) (w : Word) : (loadWord w s).temp = s.temp := rfl
@[simp] theorem loadWord_stat (s : State) (w : Word) : (loadWord w s).stat = s.stat := rfl
@[simp] theorem loadWord_rdValid (s : State) (w : Word) : (loadWord w s).rdValid = s.rdValid := rfl
@[simp] theorem loadWord_rxbuf (s : State) (w : Word) : (loadWord w s).rxbuf = s.rxbuf := rfl
@[simp] theorem loadWord_rxcnt (s : State) (w : Word) : (loadWord w s).rxcnt = s.rxcnt := rfl
@[simp] theorem loadWord_rom (s : State) (w : Word) : (loadWord w s).rom = s.rom := rfl
@[simp] theorem loadWord_fault (s : State) (w : Word) : (loadWord w s).fault = .none := rfl
@[simp] theorem loadWord_port (s : State) (w : Word) : (loadWord w s).port = w :: s.port := rfl
@[simp] theorem loadWord_resetIn (s : State) (w : Word) : (loadWord w s).resetIn = false := rfl
@[simp] theorem loadWord_events (s : State) (w : Word) : (loadWord w s).events = s.events := rfl

end Sys2Proof.Machine
end

