-- ==== Sys2Proof/Laws/Exec.lean ====
section
/-! SUPPORT. What each shared operation and each instruction can do, said once. -/

namespace Sys2Proof.Machine

/-- The next state of every operation, as a function. -/
def effectOf : Instr → State → State
  | .sendAbcEnable, s => sendCommand 0 s
  | .sendAbcDisable, s => sendCommand 1 s
  | .sendRead, s => sendCommand 2 s
  | .sendCalZero, s => sendCommand 3 s
  | .sendCalSpan2k, s => sendCommand 4 s
  | .sendReset, s => sendCommand 5 s
  | .sendSetRange2k, s => sendCommand 6 s
  | .sendSetRange5k, s => sendCommand 7 s
  | .sendNomatch _, s => replyStatus s
  | .query, s => replyStatus s
  | .tick, s => s.emit (transmitEvents s readCommand)
  | .rxb b, s => receiveByte b s
  | .rxe, s => endBurst s

theorem exec_eq_next (i : Instr) (s : State) : exec i s = .next (effectOf i s) := by
  cases i <;> rfl

theorem execAll_eq_next (is : List Instr) (s : State) :
    execAll is s = .next (is.foldl (fun t i => effectOf i t) s) := by
  induction is generalizing s with
  | nil => rfl
  | cons i is ih => rw [execAll, exec_eq_next]; exact ih _

theorem effectOf_sendOf (k : CommandIndex) (s : State) : effectOf (sendOf k) s = sendCommand k s := by
  revert k
  intro k
  match k with
  | 0 | 1 | 2 | 3 | 4 | 5 | 6 | 7 => rfl

/-- What receiving a byte can do. -/
theorem receiveByte_cases (b : Byte) (s : State) :
    (∃ h : s.rxcnt < 9, receiveByte b s = { s with rxbuf := s.rxbuf.set s.rxcnt b h, rxcnt := s.rxcnt + 1 }) ∨
    (s.rxcnt = 9 ∧ receiveByte b s = { s with rxcnt := 10 }) ∨
    (10 ≤ s.rxcnt ∧ receiveByte b s = s) := by
  unfold receiveByte
  split
  · next h => exact .inl ⟨h, rfl⟩
  · next h =>
    split
    · next h2 =>
      have e : s.rxcnt = 9 := by omega
      exact .inr (.inl ⟨e, by rw [e]⟩)
    · next h2 => exact .inr (.inr ⟨by omega, rfl⟩)

/-- What ending a burst can do. -/
theorem endBurst_cases (s : State) :
    (s.rxcnt ≠ 9 ∧ endBurst s = { s with rxcnt := 0 }) ∨
    (s.rxcnt = 9 ∧ decodeFrame s.rxbuf.toList = .error .checksumError ∧
      endBurst s = ({ s with rxcnt := 0 } : State).emit [.diagChecksumError]) ∨
    (∃ r, s.rxcnt = 9 ∧ decodeFrame s.rxbuf.toList = .ok r ∧ endBurst s = acceptReading r { s with rxcnt := 0 }) := by
  by_cases h : s.rxcnt = 9
  · match e : decodeFrame s.rxbuf.toList with
    | .error .checksumError => exact .inr (.inl ⟨h, rfl, by simp [endBurst, burstOutcome, State.burst, settleBurst, h, e]⟩)
    | .ok r => exact .inr (.inr ⟨r, h, rfl, by simp [endBurst, burstOutcome, State.burst, settleBurst, h, e]⟩)
  · exact .inl ⟨h, by simp [endBurst, burstOutcome, settleBurst, h]⟩

/-- An operation outside the receive path only emits. -/
theorem effectOf_other_emits (i : Instr) (s : State) (h : i.isReceive = false) : ∃ es, effectOf i s = s.emit es := by
  cases i with
  | rxb b => simp [Instr.isReceive, Instr.source] at h
  | rxe => simp [Instr.isReceive, Instr.source] at h
  | _ => exact ⟨_, rfl⟩

end Sys2Proof.Machine
end

