-- ==== Sys2Proof/Laws/PerInstr.lean ====
section
/-! SUPPORT. A fact for every instruction, one lemma per constructor: its fields meet the must-be-zero rules (rules R72 to R74). -/

namespace Sys2Proof.Laws.EncodesLegal

/-- The word of the operation is made of fields that the raw check accepts. -/
def Statement (i : Instr) : Prop := i.fields.legal = true

theorem sendAbcEnable : Statement .sendAbcEnable := rfl

theorem sendAbcDisable : Statement .sendAbcDisable := rfl

theorem sendRead : Statement .sendRead := rfl

theorem sendCalZero : Statement .sendCalZero := rfl

theorem sendCalSpan2k : Statement .sendCalSpan2k := rfl

theorem sendReset : Statement .sendReset := rfl

theorem sendSetRange2k : Statement .sendSetRange2k := rfl

theorem sendSetRange5k : Statement .sendSetRange5k := rfl

theorem sendNomatch (s : BitVec 3) : Statement (.sendNomatch s) := rfl

theorem query : Statement .query := rfl

theorem tick : Statement .tick := rfl

theorem rxb (b : Byte) : Statement (.rxb b) := rfl

theorem rxe : Statement .rxe := rfl

end Sys2Proof.Laws.EncodesLegal
end

