-- ==== Sys2Proof/Laws/Step.lean ====
section
/-! SUPPORT. What a step can do, said once. -/

namespace Sys2Proof.Machine

theorem running_iff (s : State) : s.running = true ↔ s.fault = .none := by
  simp [State.running]

/-- A rejected word is rejected under its own name. -/
theorem decode_illegal_self (w v : Word) (h : decode w = .illegalOp v) : v = w := by
  unfold decode at h
  dsimp only at h
  repeat' split at h
  all_goals (cases h <;> rfl)

/-- The inversion of a step that answers a next state: a reset, nothing presented, an operation, or a recorded fault. -/
theorem step_next_cases (s t : State) (h : step s = .next t) :
    (s.resetIn = true ∧ t = takeReset s) ∨
    (s.resetIn = false ∧ s.fault = .none ∧ s.port = [] ∧ t = s) ∨
    (∃ w rest i, s.resetIn = false ∧ s.fault = .none ∧ s.port = w :: rest ∧ decode w = .op i ∧
      t = effectOf i { s with port := rest }) ∨
    (∃ w rest, s.resetIn = false ∧ s.fault = .none ∧ s.port = w :: rest ∧ decode w = .illegalOp w ∧
      t = raiseIllegalOp w { s with port := rest }) := by
  unfold step nextAction at h
  cases hr : s.resetIn with
  | true =>
    simp only [hr, if_true] at h
    exact .inl ⟨rfl, by injection h with h; exact h.symm⟩
  | false =>
    cases hf : s.fault with
    | illegalOp w => simp [hr, hf] at h
    | none =>
      cases hp : s.port with
      | nil =>
        simp only [hr, hf, hp] at h
        exact .inr (.inl ⟨rfl, rfl, rfl, by injection h with h; exact h.symm⟩)
      | cons w rest =>
        simp only [hr, hf, hp, Bool.false_eq_true, if_false] at h
        cases hd : decode w with
        | op i =>
          simp only [hd, exec_eq_next] at h
          injection h with h
          exact .inr (.inr (.inl ⟨w, rest, i, rfl, rfl, rfl, hd, by rw [← h, ← hr, ← hf]⟩))
        | illegalOp v =>
          simp only [hd] at h
          injection h with h
          obtain rfl := decode_illegal_self _ _ hd
          exact .inr (.inr (.inr ⟨v, rest, rfl, rfl, rfl, hd, by rw [← h, ← hr, ← hf]⟩))

/-- With the way clear and a word presented, a step is what the word decodes to. -/
theorem step_of_word (s : State) (w : Word) (rest : List Word) (hc : s.Clear) (hp : s.port = w :: rest) :
    step s = match decode w with
      | .op i => exec i { s with port := rest }
      | .illegalOp v => .next (raiseIllegalOp v { s with port := rest }) := by
  have hf := (running_iff s).mp hc.2
  cases hd : decode w <;> simp [step, nextAction, hc.1, hf, hp, hd]

/-- The host's run of the machine is the block's steps. -/
theorem core_run_eq (k : Nat) (s : State) : Host.Core.run Sys2Proof.core k s = runSteps k s := by
  induction k generalizing s with
  | zero => rfl
  | succ k ih =>
    have hc : Host.Core.step Sys2Proof.core s = step s := rfl
    simp only [Host.Core.run, runSteps, hc]
    cases step s with
    | next t => exact ih t
    | fault f => rfl
    | refused r => rfl

end Sys2Proof.Machine
end

