-- ==== Sys2Proof/Tests/Slice0.lean ====
section
/-! SUPPORT. The author's tests: the checks of WellFormed on ill-formed terms, words written out from the encodings, the spec's own
vectors (95_test_vectors.md), and a witness for the hypotheses of every statement that has some. Expected values come from the spec. -/

namespace Sys2Proof.Tests

open Sys2Proof.Machine

/-! ### Helpers -/

/-- The informative command table of 93_implementation_defined.md item GK1: test data, of which the model assumes nothing. -/
def gk1Rom : Vector Payload 8 :=
  #v[#v[0xFF, 0x01, 0x79, 0xA0, 0x00, 0x00, 0x00, 0x00], #v[0xFF, 0x01, 0x79, 0x00, 0x00, 0x00, 0x00, 0x00],
     #v[0xFF, 0x01, 0x86, 0x00, 0x00, 0x00, 0x00, 0x00], #v[0xFF, 0x01, 0x87, 0x00, 0x00, 0x00, 0x00, 0x00],
     #v[0xFF, 0x01, 0x88, 0x07, 0xD0, 0x00, 0x00, 0x00], #v[0xFF, 0x01, 0x8D, 0x00, 0x00, 0x00, 0x00, 0x00],
     #v[0xFF, 0x01, 0x99, 0x00, 0x00, 0x00, 0x07, 0xD0], #v[0xFF, 0x01, 0x99, 0x00, 0x00, 0x00, 0x13, 0x88]]

/-- The state after reset, with the test table. -/
def fresh : State := { State.reset with rom := gk1Rom }

/-- The start state of 95_test_vectors.md section 2.5. -/
def read300 : State := { fresh with co2 := 300, stat := 64, rdValid := true }

/-- The source's worked frame (rule R111). -/
def goodFrame : Frame := #v[0xFF, 0x01, 0x86, 0x01, 0x2C, 0x25, 0x40, 0x00, 0xE7]

/-- The worked frame with its checksum off by one. -/
def badFrame : Frame := #v[0xFF, 0x01, 0x86, 0x01, 0x2C, 0x25, 0x40, 0x00, 0xE8]

/-- A state whose burst is the given frame, all 9 bytes received. -/
def holding (f : Frame) : State := { fresh with rxbuf := f, rxcnt := 9 }

/-- A state with these words at the port. -/
def withPort (ws : List Word) (s : State) : State := { s with port := ws }

/-- The next state of an outcome. -/
def stateOf : Result → Option State
  | .next s => some s
  | .fault _ => none
  | .refused _ => none

/-- The events of an outcome. -/
def eventsOf (r : Result) : Option (List Event) := (stateOf r).map State.events

/-! ### The checks of WellFormed refuse ill-formed terms -/

theorem test_refuses_reserved_op : (Fields.mk 0x6 0x0 0x00).legal = false := by decide
theorem test_refuses_zero_op : (Fields.mk 0x0 0x0 0x00).legal = false := by decide
theorem test_refuses_send_data : (Fields.mk 0x1 0x0 0x01).legal = false := by decide
theorem test_refuses_query_sel : (Fields.mk 0x2 0x1 0x00).legal = false := by decide
theorem test_refuses_tick_sel : (Fields.mk 0x3 0x1 0x00).legal = false := by decide
theorem test_refuses_rxb_sel : (Fields.mk 0x4 0x1 0x00).legal = false := by decide
theorem test_refuses_rxe_data : (Fields.mk 0x5 0x0 0x01).legal = false := by decide
theorem test_accepts_rxb : (Fields.mk 0x4 0x0 0xFF).legal = true := by decide
theorem test_refuses_table_start : Payload.meetsTableRule #v[0xFE, 0x01, 0, 0, 0, 0, 0, 0] = false := by decide
theorem test_refuses_table_address : tableMeetsRule (gk1Rom.set 7 #v[0xFF, 0x02, 0, 0, 0, 0, 0, 0]) = false := by decide

/-! ### Words written out from the encodings (rules R70 to R77, R79) -/

theorem test_word_sendAbcEnable : decode 0b0001000000000000 = .op .sendAbcEnable := by decide
theorem test_word_sendAbcDisable : decode 0b0001000100000000 = .op .sendAbcDisable := by decide
theorem test_word_sendRead : decode 0b0001001000000000 = .op .sendRead := by decide
theorem test_word_sendCalZero : decode 0b0001001100000000 = .op .sendCalZero := by decide
theorem test_word_sendCalSpan2k : decode 0b0001010000000000 = .op .sendCalSpan2k := by decide
theorem test_word_sendReset : decode 0b0001010100000000 = .op .sendReset := by decide
theorem test_word_sendSetRange2k : decode 0b0001011000000000 = .op .sendSetRange2k := by decide
theorem test_word_sendSetRange5k : decode 0b0001011100000000 = .op .sendSetRange5k := by decide
theorem test_word_sendNomatch : decode 0b0001101100000000 = .op (.sendNomatch 0b011) := by decide
theorem test_word_query : decode 0b0010000000000000 = .op .query := by decide
theorem test_word_tick : decode 0b0011000000000000 = .op .tick := by decide
theorem test_word_rxb : decode 0b0100000010010011 = .op (.rxb 0b10010011) := by decide
theorem test_word_rxe : decode 0b0101000000000000 = .op .rxe := by decide
theorem test_word_illegal : [0x0000, 0x1001, 0x18FF, 0x2001, 0x2100, 0x3100, 0x4100, 0x5001, 0x6000, 0xFFFF].all
    (fun w => decode w == .illegalOp w) = true := by decide
theorem test_table_word : decodeTableWord 16 0x1200 = some .sendRead := by decide

/-! ### The codec (95_test_vectors.md sections 2.1 to 2.3) -/

theorem test_checksum_zero_sum : checksum [0xFF, 0, 0, 0, 0, 0, 0, 0] = 0x00 := by decide
theorem test_checksum_maximal : checksum [0, 0xFF, 0xFF, 0xFF, 0xFF, 0xFF, 0xFF, 0xFF] = 0x07 := by decide
theorem test_checksum_start_not_summed : checksum [0x12, 0x34, 0x56, 0x78, 0x9A, 0xBC, 0xDE, 0xF0] = 0xDA := by decide
theorem test_compose_read : compose #v[0xFF, 0x01, 0x86, 0, 0, 0, 0, 0] = #v[0xFF, 0x01, 0x86, 0, 0, 0, 0, 0, 0x79] := by decide
theorem test_compose_copies_start : compose #v[0, 0, 0, 0, 0, 0, 0, 0] = #v[0, 0, 0, 0, 0, 0, 0, 0, 0] := by decide
theorem test_decode_worked_example : decodeFrame goodFrame.toList = .ok ⟨300, 0, 64⟩ := by decide
theorem test_decode_minimum_temperature :
    decodeFrame [0xFF, 0x01, 0x86, 0x07, 0xD0, 0x00, 0x40, 0x00, 0x62] = .ok ⟨2000, 0xFFDB, 64⟩ := by decide
theorem test_decode_maximum :
    decodeFrame [0xFF, 0xFF, 0xFF, 0xFF, 0xFF, 0xFF, 0xFF, 0xFF, 0x07] = .ok ⟨65535, 218, 255⟩ := by decide
theorem test_decode_off_by_one : decodeFrame badFrame.toList = .error .checksumError := by decide
theorem test_decode_ten_bytes : decodeFrame (goodFrame.toList ++ [0]) = .error .checksumError := by decide

/-! ### The operations (95_test_vectors.md sections 2.5 to 2.9) -/

theorem test_sendAbcEnable : eventsOf (exec .sendAbcEnable read300)
    = some [.sampleReq, .tx #v[0xFF, 0x01, 0x79, 0xA0, 0, 0, 0, 0, 0xE6], .ack 0] := by decide
theorem test_sendAbcDisable : eventsOf (exec .sendAbcDisable read300)
    = some [.sampleReq, .tx #v[0xFF, 0x01, 0x79, 0, 0, 0, 0, 0, 0x86], .ack 1] := by decide
theorem test_sendRead : eventsOf (exec .sendRead read300)
    = some [.sampleReq, .tx #v[0xFF, 0x01, 0x86, 0, 0, 0, 0, 0, 0x79], .ack 2] := by decide
theorem test_sendCalZero : eventsOf (exec .sendCalZero read300)
    = some [.sampleReq, .tx #v[0xFF, 0x01, 0x87, 0, 0, 0, 0, 0, 0x78], .ack 3] := by decide
theorem test_sendCalSpan2k : eventsOf (exec .sendCalSpan2k read300)
    = some [.sampleReq, .tx #v[0xFF, 0x01, 0x88, 0x07, 0xD0, 0, 0, 0, 0xA0], .ack 4] := by decide
theorem test_sendReset : stateOf (exec .sendReset read300)
    = some { read300 with events := [.sampleReq, .tx #v[0xFF, 0x01, 0x8D, 0, 0, 0, 0, 0, 0x72], .ack 5] } := by decide
theorem test_sendSetRange2k : eventsOf (exec .sendSetRange2k read300)
    = some [.sampleReq, .tx #v[0xFF, 0x01, 0x99, 0, 0, 0, 0x07, 0xD0, 0x8F], .ack 6] := by decide
theorem test_sendSetRange5k : eventsOf (exec .sendSetRange5k read300)
    = some [.sampleReq, .tx #v[0xFF, 0x01, 0x99, 0, 0, 0, 0x13, 0x88, 0xCB], .ack 7] := by decide
theorem test_sendNomatch : stateOf (exec (.sendNomatch 5) read300) = some { read300 with events := [.status 300 0 64] } := by decide
theorem test_query : stateOf (exec .query read300) = some { read300 with events := [.status 300 0 64] } := by decide
theorem test_tick : eventsOf (exec .tick read300)
    = some [.sampleReq, .tx #v[0xFF, 0x01, 0x86, 0, 0, 0, 0, 0, 0x79]] := by decide
theorem test_rxb_first : stateOf (exec (.rxb 0xFF) fresh)
    = some { fresh with rxbuf := #v[0xFF, 0, 0, 0, 0, 0, 0, 0, 0], rxcnt := 1 } := by decide
theorem test_rxb_saturates : stateOf (exec (.rxb 0xAA) { holding goodFrame with rxcnt := 10 })
    = some { holding goodFrame with rxcnt := 10 } := by decide
theorem test_rxe_accepts : stateOf (exec .rxe (holding goodFrame))
    = some { holding goodFrame with co2 := 300, stat := 64, rdValid := true, rxcnt := 0, events := [.publish 300 0 64] } := by decide
theorem test_rxe_all_zero_burst : eventsOf (exec .rxe (holding #v[0, 0, 0, 0, 0, 0, 0, 0, 0])) = some [.publish 0 0xFFDB 0] := by decide
theorem test_rxe_bad_checksum : stateOf (exec .rxe (holding badFrame))
    = some { holding badFrame with rxcnt := 0, events := [.diagChecksumError] } := by decide
theorem test_rxe_wrong_length : stateOf (exec .rxe { holding goodFrame with rxcnt := 10 })
    = some { holding goodFrame with rxcnt := 0 } := by decide
theorem test_illegal_word : stateOf (step (withPort [0x2001, 0x2000] fresh))
    = some { fresh with port := [0x2000], fault := .illegalOp 0x2001 } := by decide
theorem test_fault_stops : step (withPort [0x2000] { fresh with fault := .illegalOp 0x2001 })
    = .fault (.stuckAfterIllegalOp 0x2001) := rfl
theorem test_reset_input :
    stateOf (step { read300 with rxcnt := 4, fault := .illegalOp 0x6000, resetIn := true }) = some fresh := by decide
theorem test_fetch_word_runs : stateOf (step (fresh.withFetchWord 16 0x2000)) = some { fresh with events := [.status 0 0 0] } := by decide
theorem test_token_case_variant : (Pseudo.token "Read").expand = [.sendNomatch 0] := by decide
theorem test_token_trailing_space : (Pseudo.token "read ").expand = [.sendNomatch 0] := by decide

/-! ### Witnesses: for every statement with hypotheses, data that meet them together -/

theorem witness_DecodeFrameCases_length :
    (([0xFF, 0x01, 0x86, 0x01, 0x2C, 0x25, 0x40, 0x00] : List Byte).length ≠ 9) ∧ ((goodFrame.toList ++ [0]).length ≠ 9) := by decide
theorem witness_DecodeFrameCases_mismatch :
    (0xE8#8).toNat ≠ (256 - ((0x01#8).toNat + (0x86#8).toNat + (0x01#8).toNat + (0x2C#8).toNat + (0x25#8).toNat + (0x40#8).toNat
      + (0x00#8).toNat) % 256) % 256 := by decide
theorem witness_DecodeFrameCases_match :
    (0xE7#8).toNat = (256 - ((0x01#8).toNat + (0x86#8).toNat + (0x01#8).toNat + (0x2C#8).toNat + (0x25#8).toNat + (0x40#8).toNat
      + (0x00#8).toNat) % 256) % 256 := by decide
theorem witness_SingleByteChangeIsDetected :
    decodeFrame goodFrame.toList = .ok ⟨300, 0, 64⟩ ∧ 1 ≤ 1 ∧ (0x02 : Byte) ≠ goodFrame[1] ∧ 1 ≤ 8 ∧ (0xE8 : Byte) ≠ goodFrame[8] := by
  decide
theorem witness_SumPreservingChangeIsNotDetected_sum :
    decodeFrame goodFrame.toList = .ok ⟨300, 0, 64⟩ ∧
    ((0x01#8).toNat + (0x86#8).toNat + (0x01#8).toNat + (0x2C#8).toNat + (0x25#8).toNat + (0x40#8).toNat + (0x00#8).toNat + (0xE7#8).toNat) % 256
      = ((0x01#8).toNat + (0x86#8).toNat + (0x02#8).toNat + (0x2B#8).toNat + (0x25#8).toNat + (0x40#8).toNat + (0x00#8).toNat
        + (0xE7#8).toNat) % 256 := by decide
theorem witness_SumPreservingChangeIsNotDetected_swap :
    decodeFrame goodFrame.toList = .ok ⟨300, 0, 64⟩ ∧ (goodFrame.swap 1 7) ≠ goodFrame := by decide
theorem witness_EncodeOfDecodeIsSame : decode 0x1F00 = .op (.sendNomatch 7) := by decide
theorem witness_FieldsDecideOperation_legal :
    (0x1700 : Word) = (0x1#4 ++ (0#1 ++ 7#3 : BitVec 4)) ++ 0#8 ∧ (0x1800 : Word) = (0x1#4 ++ (1#1 ++ 0#3 : BitVec 4)) ++ 0#8 ∧
    (0x2000 : Word) = (0x2#4 ++ 0#4) ++ 0#8 ∧ (0x3000 : Word) = (0x3#4 ++ 0#4) ++ 0#8 ∧
    (0x40FF : Word) = (0x4#4 ++ 0#4) ++ 0xFF#8 ∧ (0x5000 : Word) = (0x5#4 ++ 0#4) ++ 0#8 := by decide
theorem witness_FieldsDecideOperation_illegal :
    (0x1001 : Word) = (0x1#4 ++ 0#4) ++ 1#8 ∧ (1#8 ≠ 0) ∧ (0x5100 : Word) = (0x5#4 ++ 1#4) ++ 0#8 ∧ (1#4 ≠ 0) ∧
    (0x4100 : Word) = (0x4#4 ++ 1#4) ++ 0#8 ∧ (0x6000 : Word) = (0x6#4 ++ 0#4) ++ 0#8 ∧ 6 ≤ (0x6#4).toNat ∧
    (0x0000 : Word) = (0x0#4 ++ 0#4) ++ 0#8 := by decide
theorem witness_StepRunsDecodedOperation :
    (withPort [0x1200, 0x2000] fresh).Clear ∧ (withPort [0x1200, 0x2000] fresh).port = 0x1200 :: [0x2000] ∧
    decode 0x1200 = .op .sendRead := by decide
theorem witness_LoadedWordRunsNext : decodeTableWord 16 0x40FF = some (.rxb 0xFF) := by decide
theorem witness_StepWithoutWordChangesNothing : fresh.Clear ∧ fresh.port = [] := by decide
theorem witness_ReservedWordRecordsFault :
    (withPort [0x2001] fresh).Clear ∧ (withPort [0x2001] fresh).port = 0x2001 :: [] ∧ ∀ i, decode 0x2001 ≠ .op i := by
  have h : decode 0x2001 = .illegalOp 0x2001 := by decide
  exact ⟨by decide, rfl, fun i e => by rw [h] at e; cases e⟩
theorem witness_FaultStopsBlockUntilReset :
    ({ fresh with fault := .illegalOp 0 } : State).fault = .illegalOp 0 ∧ ({ fresh with fault := .illegalOp 0 } : State).resetIn = false := by
  decide
theorem witness_StepConsumesFirstWordOnly :
    (withPort [0x6000, 0x2000] fresh).Clear ∧ (withPort [0x6000, 0x2000] fresh).port = 0x6000 :: [0x2000] := by decide
theorem witness_PortRunPerformsOperationsInOrder :
    (withPort [0x3000, 0x2000, 0x0000] fresh).Clear ∧
    (withPort [0x3000, 0x2000, 0x0000] fresh).port = [Instr.tick, Instr.query].map encode ++ [0x0000] := by decide
theorem witness_PendingResetActsFirst_and_ResetDiscardsBurst : ({ read300 with resetIn := true } : State).resetIn = true := rfl
theorem witness_NamedCommandsSendTheirEntries : fresh.RomMeetsTableRule := by decide
theorem witness_NomatchAnswersStatus : fresh.Inv ∧ fresh.rdValid = false := by decide
theorem witness_RxbStoresAndCounts :
    ({ fresh with rxcnt := 8 } : State).rxcnt < 9 ∧ (holding goodFrame).rxcnt = 9 ∧ ({ fresh with rxcnt := 10 } : State).rxcnt = 10 := by
  decide
theorem witness_RxeOutcomes :
    fresh.rxcnt = 0 ∧ ({ fresh with rxcnt := 8 } : State).rxcnt ≠ 9 ∧ ({ fresh with rxcnt := 10 } : State).rxcnt ≠ 9 ∧
    (holding badFrame).rxcnt = 9 ∧ decodeFrame (holding badFrame).rxbuf.toList = .error .checksumError ∧
    (holding goodFrame).rxcnt = 9 ∧ decodeFrame (holding goodFrame).rxbuf.toList = .ok ⟨300, 0, 64⟩ := by decide
theorem witness_SideEffectCounts :
    (Instr.query = .query ∨ Instr.query = .sendNomatch 7) ∧ (Instr.sendNomatch 7 = .query ∨ Instr.sendNomatch 7 = .sendNomatch 7) := by
  decide
theorem witness_OtherSourcesOnlyEmit : Instr.sendRead.isReceive = false ∧ Instr.tick.isReceive = false := by decide
theorem witness_ReceiveOperationsFrame : 8 < 9 ∧ 8 ≠ ({ fresh with rxcnt := 7 } : State).rxcnt := by decide
theorem witness_ValidFlagLife_accept :
    (holding goodFrame).rxcnt = 9 ∧ decodeFrame (holding goodFrame).rxbuf.toList = .ok ⟨300, 0, 64⟩ := by decide
theorem witness_ValidFlagLife_kept :
    ∃ t, step (withPort [0x3000] read300) = .next t ∧ (withPort [0x3000] read300).resetIn = false ∧
      (withPort [0x3000] read300).rdValid = true := ⟨_, rfl, rfl, rfl⟩
theorem witness_ReadingRegisterValues_accept :
    (holding goodFrame).rxcnt = 9 ∧ (holding goodFrame).rxbuf = #v[0xFF, 0x01, 0x86, 0x01, 0x2C, 0x25, 0x40, 0x00, 0xE7] ∧
    ((0x01#8).toNat + (0x86#8).toNat + (0x01#8).toNat + (0x2C#8).toNat + (0x25#8).toNat + (0x40#8).toNat + (0x00#8).toNat
      + (0xE7#8).toNat) % 256 = 0 := by decide
theorem witness_ReadingRegisterValues_keep :
    (Instr.tick ≠ .rxe) ∧ ({ fresh with rxcnt := 10 } : State).rxcnt ≠ 9 ∧
    decodeFrame (holding badFrame).rxbuf.toList = .error .checksumError := by decide
theorem witness_ReadingWrittenAsWhole :
    ∃ t, step (withPort [0x5000] (holding goodFrame)) = .next t ∧ (withPort [0x5000] (holding goodFrame)).resetIn = false ∧
      t.reading ≠ (holding goodFrame).reading := ⟨_, rfl, rfl, by decide⟩
theorem witness_ReadingKeptByOtherOperations :
    ({ fresh with rxcnt := 0 } : State).rxcnt ≠ 9 ∧ decodeFrame (holding badFrame).rxbuf.toList = .error .checksumError := by decide
theorem witness_CountSaturatesAndClears :
    ({ fresh with rxcnt := 10 } : State).CountInRange ∧ Instr.query.isReceive = false := by decide
theorem witness_RomIsNeverWritten : 7 < 8 ∧ ∃ t, step { read300 with resetIn := true } = .next t := ⟨by decide, _, rfl⟩
theorem witness_WrongLengthBurstIsDropped :
    fresh.rxcnt = 0 ∧ (goodFrame.toList.take 8).length ≠ 9 ∧ (goodFrame.toList ++ [0]).length ≠ 9 ∧ ([] : List Byte).length ≠ 9 := by
  decide
theorem witness_CorruptBurstLeavesReading :
    read300.rxcnt = 0 ∧ badFrame.toList.length = 9 ∧ decodeFrame badFrame.toList = .error .checksumError := by decide
theorem witness_FragmentedFrameIsLost :
    fresh.rxcnt = 0 ∧ (goodFrame.toList.take 1).length + (goodFrame.toList.drop 1).length = 9 ∧ 1 ≤ (goodFrame.toList.take 1).length ∧
    (goodFrame.toList.take 8).length + (goodFrame.toList.drop 8).length = 9 ∧ (goodFrame.toList.take 8).length ≤ 8 := by decide
theorem witness_ComposedFrameIsAccepted_and_BurstRefinesReceiveCallback : read300.rxcnt = 0 := rfl
theorem witness_QueryAnswersStaleReading : Instr.rxe ∉ [Instr.sendRead, Instr.tick, Instr.rxb 0xFF] := by decide
theorem witness_StepKeepsInvariant :
    (withPort [0x5000] (holding goodFrame)).Inv ∧ ∃ t, step (withPort [0x5000] (holding goodFrame)) = .next t := ⟨by decide, _, rfl⟩
theorem witness_InputsKeepInvariant : read300.Inv := by decide
theorem witness_QueryBeforeFirstFrameAnswersZeros :
    ∃ t, execAll [.tick, .rxb 0xFF, .rxe] State.reset = .next t ∧ t.rdValid = false := ⟨_, rfl, rfl⟩
theorem witness_StaleBufferBytesAreUnobservable :
    SameButStaleBytes { fresh with rxcnt := 3 } { fresh with rxcnt := 3, rxbuf := #v[0, 0, 0, 7, 7, 7, 7, 7, 7] } :=
  ⟨rfl, by decide⟩
theorem witness_TransmittedFramesAreWellFormed :
    (withPort [0x1200] fresh).RomMeetsTableRule ∧ ∃ t, step (withPort [0x1200] fresh) = .next t := ⟨by decide, _, rfl⟩
theorem witness_AssemblerFormsHaveTheirWords : 7 < 8 ∧ 255 < 256 := by decide
theorem witness_PseudoOperationsExpand : ∀ k, "Read" ≠ commandName k := by decide

end Sys2Proof.Tests
end

section
/-! PROOF. The registers of the block (10_state.md): the frame of every operation, who writes the reading registers, and the
statements about the state that follow. -/

namespace Sys2Proof.Machine

/-! ### The frame of an operation -/

/-- `RXB` writes the receive buffer and its count only. -/
theorem receiveByte_frame (b : Byte) (s : State) :
    receiveByte b s = { s with rxbuf := (receiveByte b s).rxbuf, rxcnt := (receiveByte b s).rxcnt } := by
  obtain ⟨_, e⟩ | ⟨-, e⟩ | ⟨-, e⟩ := receiveByte_cases b s <;> rw [e]

/-- `RXE` writes the count, the reading with its flag, and the events only. -/
theorem endBurst_frame (s : State) :
    endBurst s = { s with
      co2 := (endBurst s).co2, temp := (endBurst s).temp, stat := (endBurst s).stat, rdValid := (endBurst s).rdValid,
      rxcnt := 0, events := (endBurst s).events } := by
  obtain ⟨-, e⟩ | ⟨-, -, e⟩ | ⟨r, -, -, e⟩ := endBurst_cases s <;> rw [e] <;> rfl

/-- No operation writes the ROM, `FAULT` or one of the block's inputs. -/
theorem effectOf_frame (i : Instr) (s : State) :
    effectOf i s = { effectOf i s with rom := s.rom, fault := s.fault, port := s.port, resetIn := s.resetIn } := by
  cases i with
  | rxb b => rw [effectOf, receiveByte_frame]
  | rxe => rw [effectOf, endBurst_frame]
  | _ => rfl

@[simp] theorem effectOf_rom (i : Instr) (s : State) : (effectOf i s).rom = s.rom := by
  rw [effectOf_frame]

@[simp] theorem effectOf_fault (i : Instr) (s : State) : (effectOf i s).fault = s.fault := by
  rw [effectOf_frame]

@[simp] theorem effectOf_port (i : Instr) (s : State) : (effectOf i s).port = s.port := by
  rw [effectOf_frame]

@[simp] theorem effectOf_resetIn (i : Instr) (s : State) : (effectOf i s).resetIn = s.resetIn := by
  rw [effectOf_frame]

/-! ### The reading registers and their flag -/

@[simp] theorem emit_reading (s : State) (es : List Event) : (s.emit es).reading = s.reading := rfl

@[simp] theorem acceptReading_reading (s : State) (r : Reading) : (acceptReading r s).reading = r := rfl

theorem reading_eq_iff (s : State) (r : Reading) :
    s.reading = r ↔ s.co2 = r.co2Ppm ∧ s.temp = r.temperatureC ∧ s.stat = r.status := by
  cases r
  simp [State.reading]

/-- The burst held in the receive buffer is a 9-byte frame that carries the reading `r` (rule R153). -/
def State.BurstCarries (s : State) (r : Reading) : Prop := s.rxcnt = 9 ∧ decodeFrame s.rxbuf.toList = .ok r

/-- The premise of rule R28's last line excludes every accepting `RXE`. -/
theorem not_burstCarries (s : State) (r : Reading)
    (h : s.rxcnt ≠ 9 ∨ decodeFrame s.rxbuf.toList = .error .checksumError) : ¬ s.BurstCarries r := by
  rintro ⟨hn, hr⟩
  obtain h | h := h
  · exact h hn
  · simp [h] at hr

/-- An accepting `RXE`. -/
theorem endBurst_of_burstCarries (s : State) (r : Reading) (h : s.BurstCarries r) :
    endBurst s = acceptReading r { s with rxcnt := 0 } := by
  obtain ⟨hn, hr⟩ := h
  simp [endBurst, burstOutcome, State.burst, settleBurst, hn, hr]

/-- An operation keeps the reading registers and `RD_VALID`, or it is an `RXE` that accepts the burst's reading and sets the flag
(rules R23 to R28). -/
theorem effectOf_keeps_or_accepts (i : Instr) (s : State) :
    ((effectOf i s).reading = s.reading ∧ (effectOf i s).rdValid = s.rdValid) ∨
    (i = .rxe ∧ ∃ r, s.BurstCarries r ∧ (effectOf i s).reading = r ∧ (effectOf i s).rdValid = true) := by
  cases i with
  | rxb b => exact .inl (by rw [effectOf, receiveByte_frame]; exact ⟨rfl, rfl⟩)
  | rxe =>
    obtain ⟨-, e⟩ | ⟨-, -, e⟩ | ⟨r, hn, hr, e⟩ := endBurst_cases s <;> rw [effectOf, e]
    · exact .inl ⟨rfl, rfl⟩
    · exact .inl ⟨rfl, rfl⟩
    · exact .inr ⟨rfl, r, ⟨hn, hr⟩, rfl, rfl⟩
  | _ => exact .inl ⟨rfl, rfl⟩

/-- Only an accepting `RXE` writes the reading registers. -/
theorem effectOf_reading_of_not_accepts (i : Instr) (s : State)
    (h : i ≠ .rxe ∨ s.rxcnt ≠ 9 ∨ decodeFrame s.rxbuf.toList = .error .checksumError) :
    (effectOf i s).reading = s.reading := by
  obtain ⟨hk, -⟩ | ⟨hi, r, hr, -⟩ := effectOf_keeps_or_accepts i s
  · exact hk
  · exact absurd hr (not_burstCarries s r (h.resolve_left (not_not_intro hi)))

/-- A step that is no reset keeps the reading registers and `RD_VALID`, or takes the reading of the burst and sets the flag. -/
theorem step_keeps_or_accepts (s t : State) (h : step s = .next t) (hreset : s.resetIn = false) :
    (t.reading = s.reading ∧ t.rdValid = s.rdValid) ∨ ∃ r, s.BurstCarries r ∧ t.reading = r ∧ t.rdValid = true := by
  obtain ⟨hr, -⟩ | ⟨-, -, -, rfl⟩ | ⟨w, rest, i, -, -, -, -, rfl⟩ | ⟨w, rest, -, -, -, -, rfl⟩ := step_next_cases s t h
  · simp [hreset] at hr
  · exact .inl ⟨rfl, rfl⟩
  · obtain hk | ⟨-, ha⟩ := effectOf_keeps_or_accepts i { s with port := rest }
    · exact .inl hk
    · exact .inr ha
  · exact .inl ⟨rfl, rfl⟩

/-! ### `RD_VALID` is read by nothing -/

theorem receiveByte_withValid (b : Byte) (s : State) (v : Bool) :
    receiveByte b { s with rdValid := v } = { receiveByte b s with rdValid := v } := by
  unfold receiveByte
  dsimp only
  split
  · rfl
  · split <;> rfl

theorem settleBurst_ignores_valid (o : BurstOutcome) (s : State) (v : Bool) :
    settleBurst o s = { settleBurst o { s with rdValid := v } with rdValid := (settleBurst o s).rdValid } := by
  cases o <;> rfl

/-- Whatever `RD_VALID` holds before an operation, everything else after it is the same (rule R23). -/
theorem effectOf_ignores_valid (i : Instr) (s : State) (v : Bool) :
    effectOf i s = { effectOf i { s with rdValid := v } with rdValid := (effectOf i s).rdValid } := by
  cases i with
  | rxb b => simp only [effectOf, receiveByte_withValid]
  | rxe => exact settleBurst_ignores_valid _ { s with rxcnt := 0 } v
  | _ => rfl

/-! ### The fields of an accepted frame -/

/-- The equivalent validity test of rule R102. -/
theorem eq_checksum_iff_sum_zero (f0 f1 f2 f3 f4 f5 f6 f7 f8 : Byte) :
    f8 = checksum [f0, f1, f2, f3, f4, f5, f6, f7, f8] ↔
      (f1.toNat + f2.toNat + f3.toNat + f4.toNat + f5.toNat + f6.toNat + f7.toNat + f8.toNat) % 256 = 0 := by
  rw [← BitVec.toNat_inj, checksum_toNat, sliceSum_checked]
  have := f8.isLt
  omega

/-- A 9-byte sequence whose bytes 1 to 8 sum to 0 modulo 256 carries the reading of its fields (rules R102, R104). -/
theorem decodeFrame_of_sum_zero (f0 f1 f2 f3 f4 f5 f6 f7 f8 : Byte)
    (h : (f1.toNat + f2.toNat + f3.toNat + f4.toNat + f5.toNat + f6.toNat + f7.toNat + f8.toNat) % 256 = 0) :
    decodeFrame [f0, f1, f2, f3, f4, f5, f6, f7, f8]
      = .ok { co2Ppm := co2Field f3 f4, temperatureC := temperatureField f5, status := f6 } :=
  (decodeFrame_ok_iff _ _).mpr ⟨rfl, (eq_checksum_iff_sum_zero f0 f1 f2 f3 f4 f5 f6 f7 f8).mpr h, rfl⟩

/-! ### The steps of the block -/

/-- With a fault recorded and no reset pending there is no step (rule R183). -/
theorem step_of_fault (s : State) (w : Word) (hf : s.fault = .illegalOp w) (hr : s.resetIn = false) :
    step s = .fault (.stuckAfterIllegalOp w) := by
  simp [step, nextAction, hf, hr]

/-- No step writes the ROM, reset included (rule R32). -/
theorem step_rom (s t : State) (h : step s = .next t) : t.rom = s.rom := by
  obtain ⟨-, rfl⟩ | ⟨-, -, -, rfl⟩ | ⟨w, rest, i, -, -, -, -, rfl⟩ | ⟨w, rest, -, -, -, -, rfl⟩ := step_next_cases s t h
  · rfl
  · rfl
  · exact effectOf_rom i _
  · rfl

theorem reset_romEntry (k : CommandIndex) : State.reset.romEntry k = Config.cmdTable k := by
  match k with
  | 0 | 1 | 2 | 3 | 4 | 5 | 6 | 7 => rfl

/-- In the range of `RXCNT`, `RXB` counts up to 10 (rule R31). -/
theorem receiveByte_rxcnt (b : Byte) (s : State) (h : s.CountInRange) : (receiveByte b s).rxcnt = min (s.rxcnt + 1) 10 := by
  have hle : s.rxcnt ≤ 10 := h
  obtain ⟨hlt, e⟩ | ⟨heq, e⟩ | ⟨hge, e⟩ := receiveByte_cases b s <;> rw [e]
  · show s.rxcnt + 1 = _
    omega
  · show 10 = _
    omega
  · omega

@[simp] theorem endBurst_rxcnt (s : State) : (endBurst s).rxcnt = 0 := by
  rw [endBurst_frame]

/-- An operation outside the receive path keeps the count (rule R31). -/
theorem effectOf_other_rxcnt (i : Instr) (s : State) (h : i.isReceive = false) : (effectOf i s).rxcnt = s.rxcnt := by
  obtain ⟨es, e⟩ := effectOf_other_emits i s h
  rw [e, emit_rxcnt]

/-! ### The obligations about the registers -/

/-- Settles O18: a recorded fault leaves no step, every operation keeps `FAULT`, and reset clears it. -/
theorem faultStopsBlockUntilReset : Obligations.FaultStopsBlockUntilReset :=
  ⟨rfl, step_of_fault, fun i s => ⟨_, exec_eq_next i s, effectOf_fault i s⟩, takeReset_fault⟩

/-- Settles O19: the step drops the first word, and neither an operation nor a recorded fault touches the port. -/
theorem stepConsumesFirstWordOnly : Obligations.StepConsumesFirstWordOnly := by
  intro s w rest hc hp
  rw [step_of_word s w rest hc hp]
  cases decode w with
  | op i => exact ⟨_, exec_eq_next i _, effectOf_port i _⟩
  | illegalOp v => exact ⟨_, rfl, raiseIllegalOp_port _ v⟩

/-- Settles O37, from the two cases of a step and from `effectOf_ignores_valid`. -/
theorem validFlagLife : Obligations.ValidFlagLife := by
  refine ⟨rfl, fun s r hn hr => ?_, fun s t h hreset hv => ?_, takeReset_rdValid, fun i s v => ?_⟩
  · refine ⟨_, exec_eq_next .rxe s, ?_⟩
    rw [effectOf, endBurst_of_burstCarries s r ⟨hn, hr⟩, acceptReading_rdValid]
  · obtain ⟨-, hk⟩ | ⟨r, -, -, ht⟩ := step_keeps_or_accepts s t h hreset
    · rw [hk, hv]
    · exact ht
  · exact ⟨_, _, exec_eq_next i s, exec_eq_next i _, effectOf_ignores_valid i s v⟩

/-- Settles O38: an accepted frame writes its fields, and only an accepting `RXE` writes at all. -/
theorem readingRegisterValues : Obligations.ReadingRegisterValues := by
  refine ⟨⟨rfl, rfl, rfl⟩, fun f0 f1 f2 f3 f4 f5 f6 f7 f8 s hn hb hsum => ?_, fun i s h => ?_⟩
  · have hr : s.BurstCarries ⟨co2Field f3 f4, temperatureField f5, f6⟩ :=
      ⟨hn, by rw [hb]; exact decodeFrame_of_sum_zero f0 f1 f2 f3 f4 f5 f6 f7 f8 hsum⟩
    refine ⟨_, exec_eq_next .rxe s, ?_⟩
    have hlt := f5.isLt
    rw [effectOf, endBurst_of_burstCarries s _ hr, acceptReading_co2, acceptReading_temp, acceptReading_stat,
      co2Field_toNat, temperatureField_toInt]
    exact ⟨rfl, rfl, by omega, by omega, rfl⟩
  · exact ⟨_, exec_eq_next i s, (reading_eq_iff _ _).mp (effectOf_reading_of_not_accepts i s h)⟩

/-- Settles O39, from the two cases of a step. -/
theorem readingWrittenAsWhole : Obligations.ReadingWrittenAsWhole := by
  intro s t h hreset
  obtain ⟨hk, -⟩ | ⟨r, ⟨hn, hr⟩, ht, -⟩ := step_keeps_or_accepts s t h hreset
  · exact .inl ((reading_eq_iff t s.reading).mp hk)
  · exact .inr ⟨r, hn, hr, (reading_eq_iff t r).mp ht⟩

/-- Settles O40: none of the listed operations is an `RXE`, and an `RXE` that does not accept keeps the registers too. -/
theorem readingKeptByOtherOperations : Obligations.ReadingKeptByOtherOperations := by
  intro k sel b s
  have hsend : sendOf k ≠ .rxe := by revert k; decide
  refine ⟨fun i hi => ⟨_, exec_eq_next i s, effectOf_reading_of_not_accepts i s (.inl ?_)⟩,
    fun h => ⟨_, exec_eq_next .rxe s, effectOf_reading_of_not_accepts .rxe s (.inr h)⟩⟩
  rintro rfl
  simp [hsend.symm] at hi

/-- Settles O41: the count rule of each kind of operation. -/
theorem countSaturatesAndClears : Obligations.CountSaturatesAndClears :=
  ⟨rfl, fun b s h => ⟨_, exec_eq_next (.rxb b) s, receiveByte_rxcnt b s h⟩,
    fun s => ⟨_, exec_eq_next .rxe s, endBurst_rxcnt s⟩,
    fun i s h => ⟨_, exec_eq_next i s, effectOf_other_rxcnt i s h⟩⟩

/-- Settles O42: reset loads the table entry by entry, and no step writes the ROM. -/
theorem romIsNeverWritten : Obligations.RomIsNeverWritten := by
  refine ⟨fun k i hi => ?_, step_rom⟩
  have he : State.reset.rom[k.val] = Config.cmdTable k := reset_romEntry k
  rw [he]

end Sys2Proof.Machine
end

section
/-! PROOF. The words of the port as operations (20_memory.md): the decoder undoes the encoder, no operation reads the port, and
so a run of the machine on the words of a sequence of operations is those operations, one after the other. -/

namespace Sys2Proof

/-- A word holds its three fields (rule R70). -/
@[simp] theorem Fields.ofWord_toWord (f : Fields) : Fields.ofWord f.toWord = f := by
  obtain ⟨op, sel, data⟩ := f
  have hop : (op ++ sel ++ data).extractLsb' 12 4 = op :=
    (BitVec.extractLsb'_append_eq_of_le (by decide)).trans BitVec.extractLsb'_append_eq_left
  have hsel : (op ++ sel ++ data).extractLsb' 8 4 = sel :=
    (BitVec.extractLsb'_append_eq_of_le (by decide)).trans BitVec.extractLsb'_append_eq_right
  have hdata : (op ++ sel ++ data).extractLsb' 0 8 = data := BitVec.extractLsb'_append_eq_right
  rw [Fields.ofWord, Fields.toWord, hop, hsel, hdata]

/-- The word of an operation decodes to that operation (rules R71 to R76). -/
theorem decode_encode (i : Instr) : decode (encode i) = .op i := by
  rw [decode, encode, Fields.ofWord_toWord]
  cases i with
  | sendNomatch s => revert s; decide
  | rxb b => simp [Instr.fields]
  | _ => rfl

end Sys2Proof

namespace Sys2Proof.Machine

/-! ### No operation reads the port -/

theorem receiveByte_withPort (b : Byte) (s : State) (ws : List Word) :
    receiveByte b { s with port := ws } = { receiveByte b s with port := ws } := by
  unfold receiveByte
  dsimp only
  split
  · rfl
  · split <;> rfl

theorem settleBurst_withPort (o : BurstOutcome) (s : State) (ws : List Word) :
    settleBurst o { s with port := ws } = { settleBurst o s with port := ws } := by
  cases o <;> rfl

/-- Whatever waits at the port, an operation does the same to everything else and leaves the port as it is. -/
theorem effectOf_withPort (i : Instr) (s : State) (ws : List Word) :
    effectOf i { s with port := ws } = { effectOf i s with port := ws } := by
  cases i with
  | rxb b => exact receiveByte_withPort b s ws
  | rxe => exact settleBurst_withPort _ { s with rxcnt := 0 } ws
  | _ => rfl

/-! ### An operation's word at the port -/

/-- No operation records a fault or requests a reset. -/
theorem effectOf_clear (i : Instr) (s : State) (hc : s.Clear) : (effectOf i s).Clear := by
  obtain ⟨hreset, hrun⟩ := hc
  refine ⟨(effectOf_resetIn i s).trans hreset, ?_⟩
  rw [running_iff, effectOf_fault, ← running_iff, hrun]

/-- The step that finds an operation's word first at the port performs that operation (rules R40, R55). -/
theorem step_of_encode (s : State) (i : Instr) (rest : List Word) (hc : s.Clear) (hp : s.port = encode i :: rest) :
    step s = .next (effectOf i { s with port := rest }) := by
  rw [step_of_word s _ rest hc hp, decode_encode]
  exact exec_eq_next i _

/-- Settles O20, by induction on the operations: after the first one the port holds the words of the others, and what waits at
the port while it runs makes no difference to it (`effectOf_withPort`). -/
theorem portRunPerformsOperationsInOrder : Obligations.PortRunPerformsOperationsInOrder := by
  intro is
  induction is with
  | nil =>
    intro rest s _ hp
    have hs : { s with port := rest } = s := by rw [← show s.port = rest from hp]
    rw [hs]
    rfl
  | cons i is ih =>
    intro rest s hc hp
    have hstep : step s = .next (effectOf i { s with port := is.map encode ++ rest }) := step_of_encode s i _ hc hp
    calc runSteps (is.length + 1) s
        = runSteps is.length (effectOf i { s with port := is.map encode ++ rest }) := by rw [runSteps, hstep]
      _ = execAll is { effectOf i { s with port := is.map encode ++ rest } with port := rest } :=
          ih rest _ (effectOf_clear i _ hc) (effectOf_port i _)
      _ = execAll is (effectOf i { s with port := rest }) := by rw [← effectOf_withPort]
      _ = execAll (i :: is) { s with port := rest } := by rw [execAll, exec_eq_next]

end Sys2Proof.Machine
end

section
/-! PROOF. The encoding (30_encoding.md): which fields make a word legal, what the decoder answers for a word given by its fields, the
fixed bytes of the command table, and the expansion of the pseudo-operations. -/

namespace Sys2Proof

/-! ### The must-be-zero rules, by operation code (rules R71 to R74) -/

theorem Fields.legal_send (sel : BitVec 4) (data : Byte) : (Fields.mk 0x1 sel data).legal = (data == 0) := by
  simp [Fields.legal]

theorem Fields.legal_rxb (sel : BitVec 4) (data : Byte) : (Fields.mk 0x4 sel data).legal = (sel == 0) := by
  simp [Fields.legal]

/-- `QUERY`, `TICK` and `RXE` have no operand, so both other fields must be zero (rules R73, R74). -/
theorem Fields.legal_without_operand (op sel : BitVec 4) (data : Byte) (h : op = 0x2 ∨ op = 0x3 ∨ op = 0x5) :
    (Fields.mk op sel data).legal = (sel == 0 && data == 0) := by
  obtain rfl | rfl | rfl := h <;> simp [Fields.legal]

/-- A reserved operation code makes every word illegal (rules R71, R77). -/
theorem Fields.legal_reserved (op sel : BitVec 4) (data : Byte) (h : op = 0x0 ∨ 6 ≤ op.toNat) :
    (Fields.mk op sel data).legal = false := by
  have hop : op ≠ 0x1#4 ∧ op ≠ 0x2#4 ∧ op ≠ 0x3#4 ∧ op ≠ 0x4#4 ∧ op ≠ 0x5#4 := by revert op; decide
  simp [Fields.legal, hop]

/-! ### The decoder on a word given by its fields -/

/-- Every branch of the decoder that answers an operation has tested the must-be-zero rules (rules R76, R77). -/
theorem decode_of_not_legal (w : Word) (h : (Fields.ofWord w).legal = false) : decode w = .illegalOp w := by
  simp only [Fields.legal, Bool.or_eq_false_iff, Bool.and_eq_false_imp, Bool.and_eq_true, beq_iff_eq, beq_eq_false_iff_ne] at h
  obtain ⟨⟨⟨⟨hsend, hquery⟩, htick⟩, hrxb⟩, hrxe⟩ := h
  unfold decode
  dsimp only
  split_ifs with hs hn hq ht hb he
  · exact (hsend hs.1 hs.2.1).elim
  · exact (hsend hn.1 hn.2.1).elim
  · exact (hquery ⟨hq.1, hq.2.1⟩ hq.2.2).elim
  · exact (htick ⟨ht.1, ht.2.1⟩ ht.2.2).elim
  · exact (hrxb hb.1 hb.2).elim
  · exact (hrxe ⟨he.1, he.2.1⟩ he.2.2).elim
  · rfl

theorem decode_append_of_not_legal {op sel : BitVec 4} {data : Byte} (h : (Fields.mk op sel data).legal = false) :
    decode (op ++ sel ++ data) = .illegalOp (op ++ sel ++ data) := by
  have hf : Fields.ofWord (op ++ sel ++ data) = ⟨op, sel, data⟩ := Fields.ofWord_toWord ⟨op, sel, data⟩
  exact decode_of_not_legal _ (by rw [hf, h])

/-- Fields that are an operation's make a word that decodes to it. -/
theorem decode_append_of_fields {op sel : BitVec 4} {data : Byte} (i : Instr) (h : i.fields = ⟨op, sel, data⟩) :
    decode (op ++ sel ++ data) = .op i := by
  have hw : encode i = op ++ sel ++ data := by rw [encode, h, Fields.toWord]
  rw [← hw, decode_encode]

/-- The fields of `SEND <k>`: the index stands in `SEL[2:0]` (rules R72, R79). -/
theorem sendOf_fields (k : BitVec 3) : (sendOf k.toFin).fields = { op := 0x1, sel := 0#1 ++ k, data := 0 } := by
  revert k
  decide

/-- Settles O10: the fields of the first six clauses are an operation's, and those of the last four are not legal. -/
theorem fieldsDecideOperation : Obligations.FieldsDecideOperation := by
  rintro op sel data w rfl
  refine ⟨?send, ?unmatched, ?query, ?tick, ?rxb, ?rxe, ?sendData, ?mustBeZero, ?rxbSel, ?reserved⟩
  case send =>
    rintro k rfl rfl rfl
    exact decode_append_of_fields _ (sendOf_fields k)
  case unmatched =>
    rintro k rfl rfl rfl
    exact decode_append_of_fields (.sendNomatch k) rfl
  case query =>
    rintro rfl rfl rfl
    exact decode_append_of_fields .query rfl
  case tick =>
    rintro rfl rfl rfl
    exact decode_append_of_fields .tick rfl
  case rxb =>
    rintro rfl rfl
    exact decode_append_of_fields (.rxb data) rfl
  case rxe =>
    rintro rfl rfl rfl
    exact decode_append_of_fields .rxe rfl
  case sendData =>
    rintro rfl hdata
    exact decode_append_of_not_legal ((Fields.legal_send sel data).trans (beq_false_of_ne hdata))
  case mustBeZero =>
    intro hop hzero
    have hand : (sel == 0 && data == 0) = false := by simpa [← not_and_or] using hzero
    exact decode_append_of_not_legal ((Fields.legal_without_operand op sel data hop).trans hand)
  case rxbSel =>
    rintro rfl hsel
    exact decode_append_of_not_legal ((Fields.legal_rxb sel data).trans (beq_false_of_ne hsel))
  case reserved =>
    intro hop
    exact decode_append_of_not_legal (Fields.legal_reserved op sel data hop)

/-! ### The command table (rule R80) -/

/-- Settles O43: bytes 0 and 1 of an entry are the two constants, whatever the open bytes are. -/
theorem commandTableBeginsWithStartAndAddress : Obligations.CommandTableBeginsWithStartAndAddress :=
  fun _ => ⟨rfl, rfl⟩

end Sys2Proof

namespace Sys2Proof.Machine

/-! ### The token lookup and the pseudo-operations (rules R85, R120) -/

/-- No two commands share a name, so the first match of a command's name is that command. -/
theorem commandIndex_commandName (k : CommandIndex) : commandIndex (commandName k) = some k := by
  revert k
  decide

theorem commandIndex_eq_none (text : String) (h : ∀ k, text ≠ commandName k) : commandIndex text = none :=
  List.find?_eq_none.mpr fun k _ => by simpa using (h k).symm

theorem tokenOperation_commandName (k : CommandIndex) : tokenOperation (commandName k) = sendOf k := by
  rw [tokenOperation, commandIndex_commandName]

theorem tokenOperation_unmatched (text : String) (h : ∀ k, text ≠ commandName k) :
    tokenOperation text = .sendNomatch 0 := by
  rw [tokenOperation, commandIndex_eq_none text h]

/-- Settles O59: a token's expansion is its lookup, and the other two expansions are the definition's. -/
theorem pseudoOperationsExpand : Obligations.PseudoOperationsExpand :=
  ⟨fun _ => rfl, fun k => congrArg (fun i => [i]) (tokenOperation_commandName k),
    fun text h => congrArg (fun i => [i]) (tokenOperation_unmatched text h), rfl⟩

end Sys2Proof.Machine
end

section
/-! PROOF. The codec (40_framecodec.md): the checksum of a sequence given byte by byte, what `Compose` copies and appends, and the
cases of `Decode`. -/

namespace Sys2Proof.Machine

/-- Settles O1: of the bytes of a sequence, the checksum sums those at positions 1 to 7 only (`sliceSum_checked`). -/
theorem checksumNegatesSevenByteSum : Obligations.ChecksumNegatesSevenByteSum := by
  intro f0 f1 f2 f3 f4 f5 f6 f7 rest
  rw [checksum_toNat, sliceSum_checked]
  simp only [Nat.add_assoc]

/-- `Compose` copies the payload (rule R103). -/
theorem compose_getElem (p : Payload) (i : Nat) (h : i < 8) : (compose p)[i] = p[i] :=
  Vector.getElem_push_lt h

/-- Settles O2: the appended byte is the payload's own checksum, and the start byte is copied from the table (rule R80). -/
theorem composeAppendsChecksum : Obligations.ComposeAppendsChecksum :=
  ⟨fun p0 p1 p2 p3 p4 p5 p6 p7 =>
    ⟨_, compose_toList #v[p0, p1, p2, p3, p4, p5, p6, p7], checksumNegatesSevenByteSum p0 p1 p2 p3 p4 p5 p6 p7 []⟩,
   fun k => (compose_getElem (Config.cmdTable k) 0 (by decide)).trans (commandTableBeginsWithStartAndAddress k).1⟩

/-- The checksum byte of a 9-byte frame matches exactly when it is the negated sum of bytes 1 to 7 (rules R100, R104). -/
theorem eq_checksum_iff_toNat (f0 f1 f2 f3 f4 f5 f6 f7 f8 : Byte) :
    f8 = checksum [f0, f1, f2, f3, f4, f5, f6, f7, f8] ↔
      f8.toNat = (256 - (f1.toNat + f2.toNat + f3.toNat + f4.toNat + f5.toNat + f6.toNat + f7.toNat) % 256) % 256 := by
  rw [← BitVec.toNat_inj, checksumNegatesSevenByteSum]

/-- Settles O3: the length and the checksum are the only tests of `Decode`, and a frame that passes both yields `readingOf`, whose
fields have exact values. -/
theorem decodeFrameCases : Obligations.DecodeFrameCases := by
  refine ⟨fun b hlen => (decodeFrame_error_iff b).mpr (.inl hlen),
    fun f0 f1 f2 f3 f4 f5 f6 f7 f8 => ⟨fun hne => ?_, fun heq => ?_⟩⟩
  · have hsum : f8 ≠ checksum [f0, f1, f2, f3, f4, f5, f6, f7, f8] := mt (eq_checksum_iff_toNat ..).mp hne
    exact (decodeFrame_error_iff _).mpr (.inr hsum)
  · have hsum : f8 = checksum [f0, f1, f2, f3, f4, f5, f6, f7, f8] := (eq_checksum_iff_toNat ..).mpr heq
    exact ⟨_, (decodeFrame_ok_iff _ _).mpr ⟨rfl, hsum, rfl⟩, co2Field_toNat f3 f4, temperatureField_toInt f5, rfl⟩

end Sys2Proof.Machine
end

section
/-! PROOF. The command dispatcher (41_dispatch.md): the words of `SEND` and `SEND.NOMATCH`, what two emitting operations in a row
leave, the first two bytes of a transmitted frame, and the reply to a status query. -/

namespace Sys2Proof

/-! ### The words of the dispatcher's operations (rules R72, R79) -/

theorem encode_sendOf (k : CommandIndex) : encode (sendOf k) = 0x1000 + 0x100 * BitVec.ofNat 16 k.val := by
  revert k
  decide

theorem encode_sendNomatch (sel : BitVec 3) : encode (.sendNomatch sel) = 0x1800 + 0x100 * sel.zeroExtend 16 := by
  revert sel
  decide

theorem decode_sendWord (k : CommandIndex) : decode (0x1000 + 0x100 * BitVec.ofNat 16 k.val) = .op (sendOf k) := by
  rw [← encode_sendOf, decode_encode]

theorem decode_sendNomatchWord (sel : BitVec 3) : decode (0x1800 + 0x100 * sel.zeroExtend 16) = .op (.sendNomatch sel) := by
  rw [← encode_sendNomatch, decode_encode]

/-! ### The rule of the command table, entry by entry (rule R80) -/

theorem Payload.meetsTableRule_iff (p : Payload) : p.meetsTableRule = true ↔ p[0] = 0xFF ∧ p[1] = 0x01 := by
  simp [Payload.meetsTableRule]

theorem meetsTableRule_getElem (t : Vector Payload 8) (h : tableMeetsRule t = true) (i : Nat) (hi : i < 8) :
    t[i].meetsTableRule = true :=
  List.all_eq_true.mp h _ (Vector.mem_toList_iff.mpr (Vector.getElem_mem hi))

end Sys2Proof

namespace Sys2Proof.Machine

/-! ### Emitting operations, alone and in a row -/

theorem emit_emit (s : State) (es fs : List Event) : (s.emit es).emit fs = s.emit (es ++ fs) := by
  simp only [State.emit, List.append_assoc]

/-- Two operations in a row that only emit leave both their events, in order. -/
theorem execAll_pair_of_emits {i j : Instr} {s : State} {es fs : List Event} (hi : effectOf i s = s.emit es)
    (hj : effectOf j (s.emit es) = (s.emit es).emit fs) : execAll [i, j] s = .next (s.emit (es ++ fs)) := by
  rw [execAll_eq_next, List.foldl_cons, List.foldl_cons, List.foldl_nil, hi, hj, emit_emit]

theorem exec_sendOf (k : CommandIndex) (s : State) : exec (sendOf k) s = .next (afterSend k s) := by
  rw [exec_eq_next, effectOf_sendOf]
  rfl

theorem exec_sendNomatch (sel : BitVec 3) (s : State) : exec (.sendNomatch sel) s = .next (afterStatus s) := rfl

theorem exec_query (s : State) : exec .query s = .next (afterStatus s) := rfl

/-- A frame composed from a table that meets rule R80 begins with the start byte and the address byte. -/
theorem compose_rom_begins (s : State) (h : s.RomMeetsTableRule) (k : CommandIndex) :
    (compose s.rom[k.val])[0] = 0xFF ∧ (compose s.rom[k.val])[1] = 0x01 := by
  rw [compose_getElem _ 0 (by decide), compose_getElem _ 1 (by decide)]
  exact (Payload.meetsTableRule_iff _).mp (meetsTableRule_getElem s.rom h k.val k.isLt)

/-- Before the first accepted frame a status query answers zeros (rules R23, R200). -/
theorem afterStatus_of_unread (s : State) (hs : s.UnreadIsReset) (hv : s.rdValid = false) :
    afterStatus s = { s with events := s.events ++ [.status 0 0 0] } := by
  obtain ⟨hco2, htemp, hstat⟩ := hs hv
  rw [afterStatus, hco2, htemp, hstat]

/-! ### The obligations about the dispatcher -/

/-- Settles O25: the word is the operation's own, and both operations of a pair only emit. -/
theorem sendEmitsSampleFrameAck : Obligations.SendEmitsSampleFrameAck :=
  fun k s => ⟨decode_sendWord k, exec_sendOf k s,
    fun j => execAll_pair_of_emits (effectOf_sendOf k s) (effectOf_sendOf j _)⟩

/-- Settles O26: each named command is `SEND <k>` for its own index, and its frame begins with its entry's first two bytes. -/
theorem namedCommandsSendTheirEntries : Obligations.NamedCommandsSendTheirEntries :=
  ⟨⟨decode_sendWord 0, decode_sendWord 1, decode_sendWord 2, decode_sendWord 3,
      decode_sendWord 4, decode_sendWord 5, decode_sendWord 6, decode_sendWord 7⟩,
    fun s => ⟨exec_sendOf 0 s, exec_sendOf 1 s, exec_sendOf 2 s, exec_sendOf 3 s,
      exec_sendOf 4 s, exec_sendOf 5 s, exec_sendOf 6 s, exec_sendOf 7 s⟩,
    compose_rom_begins⟩

/-- Settles O27: a preceding `SEND` only emits, so the reply still reports the old registers, and the invariant makes them zero
before the first accepted frame. -/
theorem nomatchAnswersStatus : Obligations.NomatchAnswersStatus := by
  refine ⟨decode_sendNomatchWord, fun sel s => ⟨exec_sendNomatch sel s, fun k => ?afterSend, ?unread⟩⟩
  case afterSend => exact execAll_pair_of_emits (effectOf_sendOf k s) rfl
  case unread =>
    rintro ⟨-, -, -, hunread⟩ hv
    rw [exec_sendNomatch, afterStatus_of_unread s hunread hv]

/-- Settles O28: `QUERY` and `SEND.NOMATCH` have one body, and the registers are zero at reset. -/
theorem queryAnswersStatus : Obligations.QueryAnswersStatus := by
  refine ⟨decode_encode .query, fun s sel => ⟨exec_query s, ?sendNomatch, ?twice⟩, ?atReset⟩
  case sendNomatch => rw [exec_query, exec_sendNomatch]
  case twice => exact execAll_pair_of_emits (i := .query) (j := .query) rfl rfl
  case atReset => rw [exec_query, afterStatus_of_unread State.reset (fun _ => ⟨rfl, rfl, rfl⟩) rfl]; rfl

end Sys2Proof.Machine
end

section
/-! PROOF. The receive path (42_response_parser.md): what `RXB` and `RXE` do in each of their cases, what receiving the bytes of
a whole burst leaves, and the statements about bursts that follow. -/

namespace Sys2Proof.Machine

theorem encode_rxb (b : Byte) : encode (.rxb b) = 0x4000 + b.zeroExtend 16 := by
  have happ : (encode (.rxb b)).toNat = 0x40 <<< 8 + b.toNat := by
    rw [Nat.shiftLeft_add_eq_or_of_lt b.isLt]
    exact BitVec.toNat_append (0x4#4 ++ 0x0#4) b
  bv_omega

theorem decode_rxbWord (b : Byte) : decode (0x4000 + b.zeroExtend 16) = .op (.rxb b) := by
  rw [← encode_rxb, decode_encode]

/-! ### `RXB` and `RXE`, one equation per case -/

theorem with_rxcnt_self {s : State} {n : Nat} (h : s.rxcnt = n) : { s with rxcnt := n } = s := by
  rw [← h]

/-- `RXB` while fewer than 9 bytes are held (rule R150). -/
theorem receiveByte_of_lt (b : Byte) (s : State) (h : s.rxcnt < 9) :
    receiveByte b s = { s with rxbuf := s.rxbuf.set s.rxcnt b h, rxcnt := s.rxcnt + 1 } :=
  dif_pos h

/-- From a tenth byte on nothing is stored and the count is 10 (rule R150). -/
theorem receiveByte_of_full (b : Byte) (s : State) (h : s.rxcnt = 9 ∨ s.rxcnt = 10) :
    receiveByte b s = { s with rxcnt := 10 } := by
  obtain ⟨hlt, -⟩ | ⟨-, e⟩ | ⟨hge, e⟩ := receiveByte_cases b s
  · omega
  · exact e
  · rw [e, with_rxcnt_self (by omega)]

/-- `RXE` on a burst of the wrong length (rules R153, R154). -/
theorem endBurst_of_wrong_length (s : State) (h : s.rxcnt ≠ 9) : endBurst s = { s with rxcnt := 0 } := by
  simp [endBurst, burstOutcome, settleBurst, h]

/-- `RXE` on 9 bytes with a wrong checksum (rules R153, R155). -/
theorem endBurst_of_checksumError (s : State) (hn : s.rxcnt = 9)
    (he : decodeFrame s.rxbuf.toList = .error .checksumError) :
    endBurst s = ({ s with rxcnt := 0 } : State).emit [.diagChecksumError] := by
  simp [endBurst, burstOutcome, State.burst, settleBurst, hn, he]

/-! ### The bytes of a burst -/

/-- The state after an `RXB` for each byte of a sequence. -/
def receiveBytes (bs : List Byte) (s : State) : State := bs.foldl (fun t b => receiveByte b t) s

@[simp] theorem receiveBytes_nil (s : State) : receiveBytes [] s = s := rfl

@[simp] theorem receiveBytes_cons (b : Byte) (bs : List Byte) (s : State) :
    receiveBytes (b :: bs) s = receiveBytes bs (receiveByte b s) := rfl

/-- A burst is its bytes, received one after the other, and its `RXE`. -/
theorem execAll_receiveFrame (bs : List Byte) (s : State) :
    execAll (receiveFrame bs) s = .next (endBurst (receiveBytes bs s)) := by
  rw [execAll_eq_next, receiveFrame, List.foldl_append, List.foldl_map]
  rfl

/-- The bytes of a burst write the receive buffer and its count only. -/
theorem receiveBytes_frame (bs : List Byte) (s : State) :
    receiveBytes bs s = { s with rxbuf := (receiveBytes bs s).rxbuf, rxcnt := (receiveBytes bs s).rxcnt } := by
  induction bs generalizing s with
  | nil => rfl
  | cons b bs ih => rw [receiveBytes_cons, ih, receiveByte_frame]

/-- The bytes of a burst are counted up to 10 (rules R31, R150). -/
theorem receiveBytes_rxcnt (bs : List Byte) (s : State) (h : s.CountInRange) :
    (receiveBytes bs s).rxcnt = min (s.rxcnt + bs.length) 10 := by
  induction bs generalizing s with
  | nil => exact (min_eq_left h).symm
  | cons b bs ih =>
    have hb := receiveByte_rxcnt b s h
    rw [receiveBytes_cons, ih _ (by omega), hb, List.length_cons]
    omega

theorem receiveBytes_rxcnt_of_nine (bs : List Byte) (s : State) (h0 : s.rxcnt = 0) (hlen : bs.length = 9) :
    (receiveBytes bs s).rxcnt = 9 := by
  rw [receiveBytes_rxcnt bs s (by omega), h0, hlen]
  rfl

/-- At a count of 10 further bytes change nothing (rule R150). -/
theorem receiveBytes_of_ten (bs : List Byte) (s : State) (h : s.rxcnt = 10) : receiveBytes bs s = s := by
  induction bs with
  | nil => rfl
  | cons b bs ih => rw [receiveBytes_cons, receiveByte_of_full b s (.inr h), with_rxcnt_self h, ih]

/-- The bytes of the current burst that the buffer holds (rule R30). -/
def State.held (s : State) : List Byte := s.rxbuf.toList.take s.rxcnt

theorem receiveByte_held (b : Byte) (s : State) (h : s.rxcnt < 9) : (receiveByte b s).held = s.held ++ [b] := by
  have hkept : (s.rxbuf.toList.set s.rxcnt b).take s.rxcnt = s.rxbuf.toList.take s.rxcnt := List.take_set_of_le le_rfl
  simp [receiveByte_of_lt b s h, State.held, List.take_add_one, Vector.toList_set, h, hkept]

/-- While they fit, the bytes of a burst are held in order behind those held before (rule R150). -/
theorem receiveBytes_held (bs : List Byte) (s : State) (h : s.rxcnt + bs.length ≤ 9) :
    (receiveBytes bs s).held = s.held ++ bs := by
  induction bs generalizing s with
  | nil => exact (List.append_nil _).symm
  | cons b bs ih =>
    rw [List.length_cons] at h
    have hlt : s.rxcnt < 9 := by omega
    have hb : (receiveByte b s).rxcnt = s.rxcnt + 1 := by rw [receiveByte_of_lt b s hlt]
    rw [receiveBytes_cons, ih _ (by omega), receiveByte_held b s hlt, List.append_assoc, List.singleton_append]

/-- Nine bytes from a count of 0 fill the buffer: what `RXE` decodes is the burst itself (rule R153). -/
theorem receiveBytes_rxbuf_of_nine (bs : List Byte) (s : State) (h0 : s.rxcnt = 0) (hlen : bs.length = 9) :
    (receiveBytes bs s).rxbuf.toList = bs := by
  calc (receiveBytes bs s).rxbuf.toList
    _ = (receiveBytes bs s).held := by
      rw [State.held, receiveBytes_rxcnt_of_nine bs s h0 hlen, List.take_of_length_le Vector.length_toList.le]
    _ = s.held ++ bs := receiveBytes_held bs s (by omega)
    _ = bs := by rw [State.held, h0, List.take_zero, List.nil_append]

/-! ### The obligations about the receive path -/

/-- Settles O31: `RXB` by its cases, and a tenth byte leaves a count of 10 that neither a further byte nor `RXE` mends. -/
theorem rxbStoresAndCounts : Obligations.RxbStoresAndCounts := by
  refine ⟨decode_rxbWord, fun b s => ⟨fun h => ?stored, fun h => ?tenth, fun h => ?saturated, fun h bs => ?dropped⟩⟩
  case stored => rw [exec_eq_next, effectOf, receiveByte_of_lt b s h]
  case tenth => rw [exec_eq_next, effectOf, receiveByte_of_full b s (.inl h)]
  case saturated => rw [exec_eq_next, effectOf, receiveByte_of_full b s (.inr h), with_rxcnt_self h]
  case dropped =>
    rw [execAll_receiveFrame, receiveBytes_cons, receiveByte_of_full b s h, receiveBytes_of_ten bs _ rfl,
      endBurst_of_wrong_length _ (by simp)]

/-- Settles O32: `RXE` by its cases; with a count of 0, clearing the count changes nothing. -/
theorem rxeOutcomes : Obligations.RxeOutcomes := by
  refine ⟨decode_encode .rxe, fun s => ⟨fun h => ?empty, fun h => ?wrongLength, fun hn he => ?corrupt, fun r hn hr => ?accepted⟩⟩
  case empty => rw [exec_eq_next, effectOf, endBurst_of_wrong_length s (by omega), with_rxcnt_self h]
  case wrongLength => rw [exec_eq_next, effectOf, endBurst_of_wrong_length s h]
  case corrupt => rw [exec_eq_next, effectOf, endBurst_of_checksumError s hn he]; rfl
  case accepted => rw [exec_eq_next, effectOf, endBurst_of_burstCarries s r ⟨hn, hr⟩]; rfl

/-- Settles O44: the count after the burst is its length, or 10 for a longer one, and so it is not 9. -/
theorem wrongLengthBurstIsDropped : Obligations.WrongLengthBurstIsDropped := by
  intro s bs h0 hlen
  have hcnt := receiveBytes_rxcnt bs s (by omega)
  refine ⟨(receiveBytes bs s).rxbuf, ?_⟩
  rw [execAll_receiveFrame, endBurst_of_wrong_length _ (by omega), receiveBytes_frame]

/-- Settles O45: `RXE` decodes the burst itself, and neither its bytes nor its rejection writes the reading. -/
theorem corruptBurstLeavesReading : Obligations.CorruptBurstLeavesReading := by
  intro s bs h0 hlen he
  have hcnt := receiveBytes_rxcnt_of_nine bs s h0 hlen
  have hbuf := receiveBytes_rxbuf_of_nine bs s h0 hlen
  refine ⟨_, execAll_receiveFrame bs s, ?_⟩
  rw [endBurst_of_checksumError _ hcnt (by rw [hbuf, he]), receiveBytes_frame]
  exact ⟨rfl, rfl, rfl⟩

end Sys2Proof.Machine
end

section
/-! PROOF. The poll tick (43_poll.md): the events it emits, alone and twice in a row. -/

namespace Sys2Proof.Machine

/-- `TICK` only emits: the sample request and the frame of table entry 2, the `read` entry (rules R79, R170). -/
theorem effectOf_tick (s : State) : effectOf .tick s = s.emit [.sampleReq, .tx (compose s.rom[2])] := rfl

theorem exec_tick (s : State) : exec .tick s = .next (s.emit [.sampleReq, .tx (compose s.rom[2])]) := by
  rw [exec_eq_next, effectOf_tick]

/-- Settles O29: the word is the operation's own, and a tick keeps the ROM, so a second tick at once sends the same frame. -/
theorem tickTransmitsReadFrame : Obligations.TickTransmitsReadFrame :=
  ⟨decode_encode .tick, fun s => ⟨exec_tick s, execAll_pair_of_emits (effectOf_tick s) (effectOf_tick _)⟩⟩

end Sys2Proof.Machine
end

section
/-! PROOF. The errors of the block (60_exceptions.md): what the step on a reserved word leaves. -/

namespace Sys2Proof

/-- A word that is no operation's is rejected under its own name (rule R76). -/
theorem decode_of_no_op (w : Word) (h : ∀ i, decode w ≠ .op i) : decode w = .illegalOp w := by
  cases hd : decode w with
  | op i => exact absurd hd (h i)
  | illegalOp v => rw [Machine.decode_illegal_self w v hd]

end Sys2Proof

namespace Sys2Proof.Machine

/-- The step that finds a rejected word first at the port consumes it and records it (rules R21, R182). -/
theorem step_of_illegal (s : State) (w : Word) (rest : List Word) (hc : s.Clear) (hp : s.port = w :: rest)
    (hd : decode w = .illegalOp w) : step s = .next (raiseIllegalOp w { s with port := rest }) := by
  rw [step_of_word s w rest hc hp, hd]

/-- Settles O17: the word is rejected under its own name, and apart from the port recording it writes `FAULT` only. -/
theorem reservedWordRecordsFault : Obligations.ReservedWordRecordsFault :=
  fun s w rest hc hp hw => ⟨_, step_of_illegal s w rest hc hp (decode_of_no_op w hw), rfl⟩

end Sys2Proof.Machine
end

section
/-! PROOF. Reset (70_reset_and_hazards.md): the registers after it. -/

namespace Sys2Proof.Machine

/-- Settles O22: the table is loaded entry by entry at power-on (`reset_romEntry`), and a later reset is read register by register. -/
theorem resetValues : Obligations.ResetValues :=
  ⟨⟨rfl, rfl, rfl, rfl, rfl, rfl, reset_romEntry⟩,
    fun s => ⟨takeReset_co2 s, takeReset_temp s, takeReset_stat s, takeReset_rdValid s, takeReset_rxcnt s, takeReset_fault s,
      takeReset_rom s⟩⟩

end Sys2Proof.Machine
end

section
/-! PROOF. What the checksum detects (40_framecodec.md): a frame is valid exactly when its bytes 1 to 8 sum to 0 modulo 256, and
how that sum moves when a byte is replaced or two are swapped. -/

namespace Sys2Proof.Machine

/-! ### The sum of bytes 1 to 8 -/

/-- The sum of a frame's bytes 1 to 8, the one number that decides whether the frame is valid (rule R102). -/
def checkedSum (f : Frame) : Nat :=
  f[1].toNat + f[2].toNat + f[3].toNat + f[4].toNat + f[5].toNat + f[6].toNat + f[7].toNat + f[8].toNat

/-- Replacing a byte other than byte 0 moves the sum by the difference of the two bytes. -/
theorem checkedSum_set (f : Frame) (i : Nat) (h : i < 9) (h1 : 1 ≤ i) (v : Byte) :
    checkedSum (f.set i v) + f[i].toNat = checkedSum f + v.toNat := by
  match i, h, h1 with
  | 1, _, _ | 2, _, _ | 3, _, _ | 4, _, _ | 5, _, _ | 6, _, _ | 7, _, _ | 8, _, _ => simp [checkedSum]; omega

theorem swap_eq_set_set (f : Frame) (i j : Nat) (hi : i < 9) (hj : j < 9) :
    f.swap i j = (f.set i f[j]).set j f[i] :=
  Vector.toList_inj.mp (by simp only [Vector.toList_swap, Vector.toList_set])

/-- Swapping two bytes other than byte 0 keeps the sum: what the first replacement adds the second takes away. -/
theorem checkedSum_swap (f : Frame) (i j : Nat) (hi : i < 9) (hj : j < 9) (hi1 : 1 ≤ i) (hj1 : 1 ≤ j) :
    checkedSum (f.swap i j) = checkedSum f := by
  have hfirst := checkedSum_set f i hi hi1 f[j]
  have hsecond := checkedSum_set (f.set i f[j]) j hj hj1 f[i]
  have hj' : (f.set i f[j])[j] = f[j] := by
    rw [Vector.getElem_set]
    split <;> rfl
  rw [swap_eq_set_set]
  rw [hj'] at hsecond
  omega

/-! ### Valid frames -/

/-- The checksum byte of a frame matches exactly when the sum is 0 modulo 256 (rule R102). -/
theorem byteAt_eq_checksum_iff (f : Frame) : byteAt f.toList 8 = checksum f.toList ↔ checkedSum f % 256 = 0 := by
  obtain ⟨f0, f1, f2, f3, f4, f5, f6, f7, f8, rfl⟩ := frame_bytes f
  exact eq_checksum_iff_sum_zero f0 f1 f2 f3 f4 f5 f6 f7 f8

theorem decodeFrame_ok_iff_checkedSum (f : Frame) : (∃ r, decodeFrame f.toList = .ok r) ↔ checkedSum f % 256 = 0 := by
  simp only [decodeFrame_ok_iff, Vector.length_toList, byteAt_eq_checksum_iff, true_and, exists_and_left, exists_eq, and_true]

theorem decodeFrame_error_iff_checkedSum (f : Frame) :
    decodeFrame f.toList = .error .checksumError ↔ checkedSum f % 256 ≠ 0 := by
  simp only [decodeFrame_error_iff, Vector.length_toList, ne_eq, byteAt_eq_checksum_iff, not_true_eq_false, false_or]

/-- `Decode` never looks at byte 0 (rules R101, R104, conflict C6). -/
theorem decodeFrame_cons (v w : Byte) (bs : List Byte) : decodeFrame (v :: bs) = decodeFrame (w :: bs) := rfl

/-! ### Composed frames -/

/-- A composed frame is valid. -/
theorem checkedSum_compose (p : Payload) : checkedSum (compose p) % 256 = 0 := by
  obtain ⟨p0, p1, p2, p3, p4, p5, p6, p7, rfl⟩ := payload_bytes p
  have hc := checksumNegatesSevenByteSum p0 p1 p2 p3 p4 p5 p6 p7 []
  show (p1.toNat + p2.toNat + p3.toNat + p4.toNat + p5.toNat + p6.toNat + p7.toNat
    + (checksum [p0, p1, p2, p3, p4, p5, p6, p7]).toNat) % 256 = 0
  omega

/-- Decoding a composed payload yields the fields of the payload (rule R109). -/
theorem decodeFrame_compose (p : Payload) :
    decodeFrame (compose p).toList
      = .ok { co2Ppm := co2Field p[3] p[4], temperatureC := temperatureField p[5], status := p[6] } := by
  refine (decodeFrame_ok_iff _ _).mpr ⟨Vector.length_toList, (byteAt_eq_checksum_iff _).mpr (checkedSum_compose p), ?_⟩
  obtain ⟨p0, p1, p2, p3, p4, p5, p6, p7, rfl⟩ := payload_bytes p
  rfl

/-! ### The obligations about validity -/

/-- Settles O4: the test of rule R102. -/
theorem checksumMatchesIffZeroSum : Obligations.ChecksumMatchesIffZeroSum := eq_checksum_iff_sum_zero

/-- Settles O5: a composed frame is valid, and its field positions are copied from the payload. -/
theorem decodeOfComposeReturnsFields : Obligations.DecodeOfComposeReturnsFields :=
  fun p => ⟨_, decodeFrame_compose p, co2Field_toNat p[3] p[4], temperatureField_toInt p[5], rfl⟩

/-- Settles O6: two different bytes differ by less than 256, so the sum leaves 0 modulo 256. -/
theorem singleByteChangeIsDetected : Obligations.SingleByteChangeIsDetected := by
  intro f r i h v hr h1 hv
  have hvalid := (decodeFrame_ok_iff_checkedSum f).mp ⟨r, hr⟩
  have hset := checkedSum_set f i h h1 v
  have hne : v.toNat ≠ f[i].toNat := mt BitVec.eq_of_toNat_eq hv
  have hv256 := v.isLt
  have hf256 := f[i].isLt
  rw [decodeFrame_error_iff_checkedSum]
  omega

/-- Settles O7: byte 0 is not read, and validity depends on the sum alone, which a swap keeps. -/
theorem sumPreservingChangeIsNotDetected : Obligations.SumPreservingChangeIsNotDetected := by
  refine ⟨fun f v => ?byteZero, fun f g r hsum hr => ?sameSum, fun f r i j hi hj hi1 _ hj1 _ hr => ?swap⟩
  case byteZero =>
    obtain ⟨f0, f1, f2, f3, f4, f5, f6, f7, f8, rfl⟩ := frame_bytes f
    exact decodeFrame_cons v f0 [f1, f2, f3, f4, f5, f6, f7, f8]
  case sameSum =>
    have hg : checkedSum g % 256 = 0 := hsum.symm.trans ((decodeFrame_ok_iff_checkedSum f).mp ⟨r, hr⟩)
    exact (decodeFrame_ok_iff_checkedSum g).mpr hg
  case swap =>
    rw [decodeFrame_ok_iff_checkedSum, checkedSum_swap f i j hi hj hi1 hj1]
    exact (decodeFrame_ok_iff_checkedSum f).mp ⟨r, hr⟩

end Sys2Proof.Machine
end

section
/-! PROOF. The words of the operations as a set (30_encoding.md): each legal word is one operation's word, there are 275 of them, and
the rows of the opcode table divide them up. -/

namespace Sys2Proof

/-! ### A legal word is its operation's word -/

theorem Fields.toWord_ofWord (w : Word) : (Fields.ofWord w).toWord = w := by
  have htop : w.extractLsb' 12 4 ++ w.extractLsb' 8 4 = w.extractLsb' 8 8 :=
    BitVec.extractLsb'_append_extractLsb'_eq_extractLsb' rfl
  have hall : w.extractLsb' 8 8 ++ w.extractLsb' 0 8 = w.extractLsb' 0 16 :=
    BitVec.extractLsb'_append_extractLsb'_eq_extractLsb' rfl
  rw [Fields.toWord, Fields.ofWord, htop, hall, BitVec.extractLsb'_eq_self]

/-- `SEL` is its top bit, which tells `SEND` from `SEND.NOMATCH`, followed by the other three (rule R72). -/
theorem sel_eq_append (sel : BitVec 4) : sel = BitVec.ofBool (sel.getLsbD 3) ++ sel.extractLsb' 0 3 := by
  revert sel
  decide

/-- What the decoder answers has the fields that the decoder read, branch by branch (rule R76). -/
theorem fields_of_decode (w : Word) (i : Instr) (h : decode w = .op i) : i.fields = Fields.ofWord w := by
  unfold decode at h
  generalize Fields.ofWord w = f at h ⊢
  obtain ⟨op, sel, data⟩ := f
  dsimp only at h
  split_ifs at h with hs hn hq ht hb he <;> cases h
  · obtain ⟨rfl, rfl, hbit⟩ := hs
    rw [sendOf_fields]
    exact congrArg (Fields.mk _ · _) ((sel_eq_append sel).trans (by rw [hbit]; rfl)).symm
  · obtain ⟨rfl, rfl, hbit⟩ := hn
    exact congrArg (Fields.mk _ · _) ((sel_eq_append sel).trans (by rw [hbit]; rfl)).symm
  · obtain ⟨rfl, rfl, rfl⟩ := hq
    rfl
  · obtain ⟨rfl, rfl, rfl⟩ := ht
    rfl
  · obtain ⟨rfl, rfl⟩ := hb
    rfl
  · obtain ⟨rfl, rfl, rfl⟩ := he
    rfl

theorem encode_of_decode (w : Word) (i : Instr) (h : decode w = .op i) : encode i = w := by
  rw [encode, fields_of_decode w i h, Fields.toWord_ofWord]

/-- The legal words are exactly the words of the operations. -/
theorem decode_eq_op_iff (w : Word) (i : Instr) : decode w = .op i ↔ encode i = w :=
  ⟨encode_of_decode w i, fun h => h ▸ decode_encode i⟩

theorem encode_injective : Function.Injective encode := fun i j h => by
  have hj : decode (encode i) = .op j := by rw [h, decode_encode]
  exact Decoded.op.inj ((decode_encode i).symm.trans hj)

/-! ### Counting the operations -/

/-- Every operation but `RXB`, once. -/
def operationsButRxb : List Instr :=
  (List.finRange 8).map sendOf ++ (List.finRange 8).map (fun k => .sendNomatch (BitVec.ofFin k)) ++ [.query, .tick, .rxe]

/-- Every operation, once: an `RXB` for each byte besides the others. -/
def allOperations : List Instr := operationsButRxb ++ (List.finRange 256).map fun b => .rxb (BitVec.ofFin b)

theorem mem_allOperations (i : Instr) : i ∈ allOperations := by
  rw [allOperations, List.mem_append]
  cases i with
  | rxb b => exact .inr (List.mem_map.mpr ⟨b.toFin, List.mem_finRange _, rfl⟩)
  | sendNomatch s => exact .inl (by revert s; decide)
  | _ => exact .inl (by decide)

theorem allOperations_nodup : allOperations.Nodup := by
  have hop : ∀ i ∈ operationsButRxb, i.fields.op ≠ 0x4#4 := by decide
  refine List.nodup_append.mpr ⟨by decide, (List.nodup_finRange 256).map fun b c h => ?injective, fun i hi j hj h => ?disjoint⟩
  case injective =>
    injection h with h
    injection h
  case disjoint =>
    obtain ⟨b, -, rfl⟩ := List.mem_map.mp hj
    exact hop i hi (by rw [h]; rfl)

theorem allOperations_length : allOperations.length = 275 := by
  simp [allOperations, operationsButRxb]

/-! ### The rows of the opcode table -/

theorem Fields.toWord_injective : Function.Injective Fields.toWord := fun f g h => by
  rw [← Fields.ofWord_toWord f, h, Fields.ofWord_toWord]

theorem Fields.toWord_and (f g : Fields) :
    f.toWord &&& g.toWord = Fields.toWord ⟨f.op &&& g.op, f.sel &&& g.sel, f.data &&& g.data⟩ :=
  BitVec.and_append.trans (congrArg (· ++ (f.data &&& g.data)) BitVec.and_append)

/-- A word belongs to a row when each of its fields does. -/
theorem covers_iff_fields (pattern mask : Fields) (w : Word) :
    (TableRow.mk pattern.toWord mask.toWord).covers w = true ↔
      Fields.mk ((Fields.ofWord w).op &&& mask.op) ((Fields.ofWord w).sel &&& mask.sel) ((Fields.ofWord w).data &&& mask.data)
        = pattern := by
  rw [TableRow.covers, beq_iff_eq, ← Fields.toWord_injective.eq_iff, ← Fields.toWord_and, Fields.toWord_ofWord]

theorem encode_eq_iff_fields (i : Instr) (w : Word) : encode i = w ↔ i.fields = Fields.ofWord w := by
  rw [encode, ← Fields.toWord_injective.eq_iff, Fields.toWord_ofWord]

/-- The row of a single word. -/
theorem covers_full_mask (pattern w : Word) : (TableRow.mk pattern 0xFFFF).covers w = true ↔ pattern = w := by
  have hmask : w &&& 0xFFFF = w := BitVec.and_allOnes
  rw [TableRow.covers, hmask, beq_iff_eq, eq_comm]

/-- The row of `SEND.NOMATCH`: three bits of `SEL` are free (rule R72). -/
theorem covers_sendNomatch (w : Word) :
    (TableRow.mk 0x1800 0xF8FF).covers w = true ↔ ∃ s, encode (.sendNomatch s) = w := by
  have hsel : ∀ sel : BitVec 4, sel &&& 0x8 = 0x8 ↔ ∃ s : BitVec 3, 1#1 ++ s = sel := by decide
  refine (covers_iff_fields ⟨0x1, 0x8, 0x00⟩ ⟨0xF, 0x8, 0xFF⟩ w).trans ?_
  simp only [encode_eq_iff_fields, Instr.fields]
  obtain ⟨op, sel, data⟩ := Fields.ofWord w
  have hop : op &&& 0xF = op := BitVec.and_allOnes
  have hdata : data &&& 0xFF = data := BitVec.and_allOnes
  simp only [Fields.mk.injEq, hop, hdata, hsel, exists_and_left, exists_and_right, eq_comm]

/-- The row of `RXB`: the byte is free (rule R74). -/
theorem covers_rxb (w : Word) : (TableRow.mk 0x4000 0xFF00).covers w = true ↔ ∃ b, encode (.rxb b) = w := by
  refine (covers_iff_fields ⟨0x4, 0x0, 0x00⟩ ⟨0xF, 0xF, 0x00⟩ w).trans ?_
  simp only [encode_eq_iff_fields, Instr.fields]
  obtain ⟨op, sel, data⟩ := Fields.ofWord w
  have hop : op &&& 0xF = op := BitVec.and_allOnes
  have hsel : sel &&& 0xF = sel := BitVec.and_allOnes
  have hdata : data &&& 0x00 = 0x00 := BitVec.and_zero
  simp only [Fields.mk.injEq, hop, hsel, hdata, and_true, exists_and_left, exists_eq', eq_comm]

/-- Two rows that ask for different values of a bit both test share no word. -/
theorem not_covers_both (a b : TableRow) (h : a.pattern &&& b.mask ≠ b.pattern &&& a.mask) (w : Word) :
    ¬(a.covers w = true ∧ b.covers w = true) := by
  rintro ⟨ha, hb⟩
  rw [TableRow.covers, beq_iff_eq] at ha hb
  exact h (by rw [← ha, ← hb, BitVec.and_assoc, BitVec.and_assoc, BitVec.and_comm a.mask])

/-- An operation is one of the 13 constructors, in the order of the opcode table. -/
theorem Instr.exists_iff (P : Instr → Prop) : (∃ i, P i) ↔
    P .sendAbcEnable ∨ P .sendAbcDisable ∨ P .sendRead ∨ P .sendCalZero ∨ P .sendCalSpan2k ∨ P .sendReset ∨ P .sendSetRange2k ∨
    P .sendSetRange5k ∨ (∃ s, P (.sendNomatch s)) ∨ P .query ∨ P .tick ∨ (∃ b, P (.rxb b)) ∨ P .rxe := by
  constructor
  · rintro ⟨i, h⟩
    cases i with
    | sendNomatch s => simp only [show ∃ s, P (.sendNomatch s) from ⟨s, h⟩, true_or, or_true]
    | rxb b => simp only [show ∃ b, P (.rxb b) from ⟨b, h⟩, true_or, or_true]
    | _ => simp only [h, true_or, or_true]
  · rintro (h | h | h | h | h | h | h | h | ⟨_, h⟩ | h | h | ⟨_, h⟩ | h) <;> exact ⟨_, h⟩

/-- The words of the rows are the words of the operations, row by row. -/
theorem covered_iff_encode (w : Word) : (∃ r ∈ opcodeTable, r.covers w = true) ↔ ∃ i, encode i = w := by
  simp only [Instr.exists_iff, opcodeTable, List.mem_cons, List.not_mem_nil, or_false, exists_eq_or_imp, exists_eq_left,
    covers_full_mask, covers_sendNomatch, covers_rxb]
  rfl

/-! ### The obligations about the words -/

/-- Settles O8: the encoder's fields take the decoder to the operation's own branch. -/
theorem decodeOfEncodeIsSame : Obligations.DecodeOfEncodeIsSame := decode_encode

/-- Settles O9: the operation's fields are those the decoder read, and fields determine their word. -/
theorem encodeOfDecodeIsSame : Obligations.EncodeOfDecodeIsSame := encode_of_decode

/-- Settles O11: the legal words are the words of the 275 operations, and no two operations share a word. -/
theorem exactlyLegalWordsCount : Obligations.ExactlyLegalWordsCount := by
  refine ⟨allOperations.map encode, allOperations_nodup.map encode_injective, ?length, fun w => ?legal⟩
  case length => rw [List.length_map, allOperations_length]
  case legal => simp only [decode_eq_op_iff, List.mem_map, mem_allOperations, true_and]

/-- Settles O12: any two rows test a common bit for different values, and the rows hold the words of the operations. -/
theorem opcodeRowsAreDisjointAndComplete : Obligations.OpcodeRowsAreDisjointAndComplete := by
  have hpatterns : opcodeTable.Pairwise fun a b => a.pattern &&& b.mask ≠ b.pattern &&& a.mask := by decide
  refine ⟨hpatterns.imp fun h => not_covers_both _ _ h, fun w => ?_⟩
  simp only [decode_eq_op_iff, covered_iff_encode]

/-- Settles O13: the decoder, evaluated on the ten words. -/
theorem sampleWordsDecode : Obligations.SampleWordsDecode := by
  unfold Obligations.SampleWordsDecode
  decide

end Sys2Proof
end

section
/-! PROOF. The operation listing (30_encoding.md section 4): the word of each assembler form. -/

namespace Sys2Proof.Machine

/-- `SEND <name>` for a command's own name (rules R79, R84). -/
theorem word_sendName (k : CommandIndex) :
    (AsmLine.sendName (commandName k)).word = some (0x1000 + 0x100 * BitVec.ofNat 16 k.val) := by
  rw [AsmLine.word, AsmLine.operation, commandIndex_commandName, ← encode_sendOf]
  rfl

/-- `SEND <k>` for a number in its range (rule R84). -/
theorem word_sendIndex (k : Nat) (h : k < 8) :
    (AsmLine.sendIndex k).word = some (0x1000 + 0x100 * BitVec.ofNat 16 k) := by
  rw [AsmLine.word, AsmLine.operation, dif_pos h, Option.map_some, encode_sendOf]

/-- `RXB <byte>` for a number in its range (rule R84). -/
theorem word_rxb (b : Nat) (h : b < 256) : (AsmLine.rxb b).word = some (0x4000 + BitVec.ofNat 16 b) := by
  have hext : (BitVec.ofNat 8 b).zeroExtend 16 = BitVec.ofNat 16 b := BitVec.setWidth_ofNat_of_le_of_lt (by decide) h
  rw [AsmLine.word, AsmLine.operation, if_pos h, Option.map_some, encode_rxb, hext]

/-- Settles O58: the named forms are `SEND <name>` for the eight names, and a form without an operand has one word. -/
theorem assemblerFormsHaveTheirWords : Obligations.AssemblerFormsHaveTheirWords :=
  ⟨⟨word_sendName 0, word_sendName 1, word_sendName 2, word_sendName 3,
      word_sendName 4, word_sendName 5, word_sendName 6, word_sendName 7⟩,
    word_sendIndex, rfl, rfl, rfl, word_rxb, rfl⟩

end Sys2Proof.Machine
end

section
/-! PROOF. One step and the environment (10_state.md section 3, 20_memory.md, 70_reset_and_hazards.md): what a step is for each
condition of the inputs, and a word loaded from outside. -/

namespace Sys2Proof.Machine

/-! ### A step, by what it finds at the inputs -/

/-- A pending reset is the next step, whatever `FAULT` and the port hold (rule R200; log entry 3). -/
theorem step_of_reset (s : State) (h : s.resetIn = true) : step s = .next (takeReset s) := by
  simp [step, nextAction, h]

/-- With nothing presented a step changes nothing (log entry 2). -/
theorem step_of_empty_port (s : State) (hc : s.Clear) (hp : s.port = []) : step s = .next s := by
  obtain ⟨hreset, hrun⟩ := hc
  simp [step, nextAction, hreset, (running_iff s).mp hrun, hp]

/-- With an operation's word first at the port, a step is that operation (rules R40, R55). -/
theorem step_of_op (s : State) (w : Word) (rest : List Word) (i : Instr) (hc : s.Clear) (hp : s.port = w :: rest)
    (hd : decode w = .op i) : step s = exec i { s with port := rest } := by
  rw [step_of_word s w rest hc hp, hd]

theorem decodeTableWord_eq_some_iff (n v : Nat) (i : Instr) :
    decodeTableWord n v = some i ↔ decode (tableWord n v) = .op i := by
  unfold decodeTableWord
  cases decode (tableWord n v) <;> simp

/-- Nothing stands in the way of a loaded word (log entry 15). -/
theorem loadWord_clear (s : State) (w : Word) : (loadWord w s).Clear :=
  ⟨loadWord_resetIn s w, (running_iff _).mpr (loadWord_fault s w)⟩

/-! ### The obligations about the step -/

/-- Settles O14: the word at the head of the port decides the step. -/
theorem stepRunsDecodedOperation : Obligations.StepRunsDecodedOperation := step_of_op

/-- Settles O15: a loaded word stands first at the port of a clear block. -/
theorem loadedWordRunsNext : Obligations.LoadedWordRunsNext := fun s n v i h =>
  step_of_op _ (tableWord n v) s.port i (loadWord_clear s _) (loadWord_port s _) ((decodeTableWord_eq_some_iff n v i).mp h)

/-- Settles O16: the idle step. -/
theorem stepWithoutWordChangesNothing : Obligations.StepWithoutWordChangesNothing := step_of_empty_port

/-- Settles O21: the next state is `effectOf`, which keeps `FAULT` and the inputs. -/
theorem everyOperationCompletes : Obligations.EveryOperationCompletes :=
  fun i s => ⟨_, exec_eq_next i s, effectOf_fault i s, effectOf_port i s, effectOf_resetIn i s⟩

/-- Settles O23: the reset step serves the request and leaves the port as it is. -/
theorem pendingResetActsFirst : Obligations.PendingResetActsFirst :=
  fun s h => ⟨step_of_reset s h, takeReset_resetIn s, takeReset_port s⟩

/-- Settles O24: the state after a reset depends on neither the buffer nor the count, and keeps the events. -/
theorem resetDiscardsBurst : Obligations.ResetDiscardsBurst := by
  intro s buf n h
  have hburst : step { s with rxbuf := buf, rxcnt := n } = .next (takeReset s) := step_of_reset _ h
  exact ⟨hburst.trans (step_of_reset s h).symm, _, step_of_reset s h, takeReset_events s⟩

end Sys2Proof.Machine
end

section
/-! PROOF. The events of an operation (60_exceptions.md section 4): what an operation emits does not depend on what was emitted
before, stays within its source's row, and transmits only frames composed from the table. -/

namespace Sys2Proof

/-- The operations by kind, with the eight named commands taken together as `SEND <k>` (rules R72, R79). -/
theorem Instr.casesBySend {motive : Instr → Prop} (send : ∀ k, motive (sendOf k)) (sendNomatch : ∀ s, motive (.sendNomatch s))
    (query : motive .query) (tick : motive .tick) (rxb : ∀ b, motive (.rxb b)) (rxe : motive .rxe) (i : Instr) : motive i := by
  cases i with
  | sendAbcEnable => exact send 0
  | sendAbcDisable => exact send 1
  | sendRead => exact send 2
  | sendCalZero => exact send 3
  | sendCalSpan2k => exact send 4
  | sendReset => exact send 5
  | sendSetRange2k => exact send 6
  | sendSetRange5k => exact send 7
  | sendNomatch s => exact sendNomatch s
  | query => exact query
  | tick => exact tick
  | rxb b => exact rxb b
  | rxe => exact rxe

@[simp] theorem sendOf_source (k : CommandIndex) : (sendOf k).source = .controlSurface := by
  revert k
  decide

end Sys2Proof

namespace Sys2Proof.Machine

/-! ### No operation reads the event log -/

/-- The events that an operation appends: those it leaves when nothing was emitted before. -/
def emittedBy (i : Instr) (s : State) : List Event := (effectOf i { s with events := [] }).events

theorem receiveByte_withEvents (b : Byte) (s : State) (evs : List Event) :
    receiveByte b { s with events := evs } = { receiveByte b s with events := evs } := by
  unfold receiveByte
  dsimp only
  split
  · rfl
  · split <;> rfl

theorem settleBurst_withEvents (o : BurstOutcome) (s : State) (evs : List Event) :
    settleBurst o { s with events := evs }
      = { settleBurst o s with events := evs ++ (settleBurst o { s with events := [] }).events } := by
  cases o with
  | malformedFrameLength => simp [settleBurst]
  | checksumError => rfl
  | accepted r => rfl

/-- Whatever was emitted before, an operation does the same to everything else and appends the same events. -/
theorem effectOf_withEvents (i : Instr) (s : State) (evs : List Event) :
    effectOf i { s with events := evs } = { effectOf i s with events := evs ++ emittedBy i s } := by
  cases i with
  | rxb b => simp [emittedBy, effectOf, receiveByte_withEvents]
  | rxe => exact settleBurst_withEvents _ { s with rxcnt := 0 } evs
  | _ => rfl

/-- An operation only appends to the event log (rules R13, R41). -/
theorem effectOf_events (i : Instr) (s : State) : (effectOf i s).events = s.events ++ emittedBy i s :=
  congrArg State.events (effectOf_withEvents i s s.events)

/-! ### What each operation emits -/

theorem emittedBy_sendOf (k : CommandIndex) (s : State) :
    emittedBy (sendOf k) s = [.sampleReq, .tx (compose s.rom[k.val]), .ack k] := by
  rw [emittedBy, effectOf_sendOf]
  rfl

theorem emittedBy_sendNomatch (sel : BitVec 3) (s : State) :
    emittedBy (.sendNomatch sel) s = [.status s.co2 s.temp s.stat] := rfl

theorem emittedBy_query (s : State) : emittedBy .query s = [.status s.co2 s.temp s.stat] := rfl

theorem emittedBy_tick (s : State) : emittedBy .tick s = [.sampleReq, .tx (compose s.rom[2])] := rfl

theorem emittedBy_rxb (b : Byte) (s : State) : emittedBy (.rxb b) s = [] := by
  rw [emittedBy, effectOf, receiveByte_withEvents]

/-- `RXE` emits nothing, the diagnostic, or one publish (rule R153). -/
theorem emittedBy_rxe_cases (s : State) :
    emittedBy .rxe s = [] ∨ emittedBy .rxe s = [.diagChecksumError] ∨ ∃ c t st, emittedBy .rxe s = [.publish c t st] := by
  obtain ⟨-, e⟩ | ⟨-, -, e⟩ | ⟨r, -, -, e⟩ := endBurst_cases { s with events := [] } <;> rw [emittedBy, effectOf, e]
  · exact .inl rfl
  · exact .inr (.inl rfl)
  · exact .inr (.inr ⟨_, _, _, rfl⟩)

/-- Every event an operation emits is one that its source may cause (rule R195). -/
theorem mayCause_of_mem_emittedBy (i : Instr) (s : State) : ∀ e ∈ emittedBy i s, mayCause i.source e = true := by
  induction i using Instr.casesBySend with
  | send k => simp [emittedBy_sendOf, mayCause]
  | sendNomatch sel => simp [emittedBy_sendNomatch, Instr.source, mayCause]
  | query => simp [emittedBy_query, Instr.source, mayCause]
  | tick => simp [emittedBy_tick, Instr.source, mayCause]
  | rxb b => simp [emittedBy_rxb]
  | rxe =>
    obtain e | e | ⟨_, _, _, e⟩ := emittedBy_rxe_cases s <;> simp [e, Instr.source, mayCause, Event.isReceive]

/-- Every frame an operation transmits is composed from an entry of the table (rules R121, R170). -/
theorem eq_compose_of_tx_mem_emittedBy (i : Instr) (s : State) (f : Frame) (h : .tx f ∈ emittedBy i s) :
    ∃ k : CommandIndex, f = compose s.rom[k.val] := by
  induction i using Instr.casesBySend with
  | send k => exact ⟨k, by simpa [emittedBy_sendOf] using h⟩
  | sendNomatch sel => simp [emittedBy_sendNomatch] at h
  | query => simp [emittedBy_query] at h
  | tick => exact ⟨2, by simpa [emittedBy_tick] using h⟩
  | rxb b => simp [emittedBy_rxb] at h
  | rxe => obtain e | e | ⟨_, _, _, e⟩ := emittedBy_rxe_cases s <;> simp [e] at h

/-- An operation outside the receive path writes the event log only (rule R57). -/
theorem effectOf_other_frame (i : Instr) (s : State) (h : i.isReceive = false) :
    effectOf i s = { s with events := (effectOf i s).events } := by
  obtain ⟨es, e⟩ := effectOf_other_emits i s h
  rw [e]
  rfl

/-- What a step appends to the event log is what some operation emits with the same table, or nothing. -/
theorem step_events (s t : State) (h : step s = .next t) :
    t.events = s.events ∨ ∃ i rest, t.events = s.events ++ emittedBy i { s with port := rest } := by
  obtain ⟨-, rfl⟩ | ⟨-, -, -, rfl⟩ | ⟨w, rest, i, -, -, -, -, rfl⟩ | ⟨w, rest, -, -, -, -, rfl⟩ := step_next_cases s t h
  · exact .inl rfl
  · exact .inl rfl
  · exact .inr ⟨i, rest, effectOf_events i _⟩
  · exact .inl rfl

/-! ### The obligations about events -/

/-- Settles O56: the appended events are `emittedBy`. -/
theorem eventsStayWithinSourceTable : Obligations.EventsStayWithinSourceTable :=
  fun i s => ⟨_, emittedBy i s, exec_eq_next i s, effectOf_events i s, mayCause_of_mem_emittedBy i s⟩

/-- Settles O57: a transmitted frame is composed, so it is valid, from an entry that begins with the start and address bytes. -/
theorem transmittedFramesAreWellFormed : Obligations.TransmittedFramesAreWellFormed := by
  intro s t hrom h
  obtain he | ⟨i, rest, he⟩ := step_events s t h
  · exact ⟨[], by rw [he, List.append_nil], fun f hf => absurd hf List.not_mem_nil⟩
  · refine ⟨_, he, fun f hf => ?_⟩
    obtain ⟨k, rfl⟩ := eq_compose_of_tx_mem_emittedBy i _ f hf
    obtain ⟨hstart, haddr⟩ := compose_rom_begins s hrom k
    exact ⟨hstart, haddr, checkedSum_compose _⟩

/-- Settles O33: `SEND <k>` emits one sample request and one frame, and a status query neither. -/
theorem sideEffectCounts : Obligations.SideEffectCounts := by
  refine ⟨fun k s => ⟨_, exec_eq_next _ s, ?_⟩, fun i sel s hi => ⟨_, exec_eq_next i s, ?_⟩⟩
  · simp [effectOf_events, emittedBy_sendOf, Event.isTransmit, List.countP_cons]
  · obtain rfl | rfl := hi
    · simp [effectOf_events, emittedBy_query, Event.isTransmit]
    · simp [effectOf_events, emittedBy_sendNomatch, Event.isTransmit]

/-- Settles O35: the frame of the operations that only emit. -/
theorem otherSourcesOnlyEmit : Obligations.OtherSourcesOnlyEmit :=
  fun i s h => ⟨_, exec_eq_next i s, effectOf_other_frame i s h⟩

/-- Settles O34: the first `RXE` clears the count, and a query keeps the registers that the next one reports. -/
theorem rxeAndQueryAreIdempotent : Obligations.RxeAndQueryAreIdempotent := by
  refine fun s => ⟨?rxe, afterStatus s, exec_query s, rfl, exec_query (afterStatus s)⟩
  case rxe =>
    have h0 : (endBurst s).rxcnt = 0 := endBurst_rxcnt s
    have hsecond : endBurst (endBurst s) = endBurst s := by
      rw [endBurst_of_wrong_length _ (by omega), with_rxcnt_self h0]
    calc execAll [.rxe, .rxe] s = .next (endBurst (endBurst s)) := execAll_eq_next _ _
      _ = exec .rxe s := by rw [hsecond, exec_eq_next, effectOf]

/-- `SEND read` is `TICK` and then the acknowledgement of command 2 (rule R172). -/
theorem effectOf_sendRead (s : State) : effectOf .sendRead s = (effectOf .tick s).emit [.ack 2] :=
  (emit_emit s _ _).symm

/-- Settles O30: neither operation writes the registers that the query reports. -/
theorem tickIsSendReadWithoutAck : Obligations.TickIsSendReadWithoutAck := by
  refine fun s => ⟨effectOf .tick s, exec_eq_next .tick s, ?sendRead, execAll_eq_next _ s, ?sendReadQuery⟩
  case sendRead =>
    rw [exec_eq_next, effectOf_sendRead]
    rfl
  case sendReadQuery =>
    have hquery : replyStatus (effectOf .sendRead s) = (effectOf .tick s).emit [.ack 2, .status s.co2 s.temp s.stat] := by
      rw [effectOf_sendRead]
      exact emit_emit _ _ _
    exact (execAll_eq_next _ s).trans (congrArg _ hquery)

end Sys2Proof.Machine
end

section
/-! PROOF. Whole bursts (42_response_parser.md, 41_dispatch.md section 4): a burst against the source's own callback, a frame that
comes in two bursts, and the operations of the other sources in between. -/

namespace Sys2Proof.Machine

/-! ### The buffer bytes that a received byte keeps -/

/-- `RXB` stores to the buffer at its count only (rule R150). -/
theorem receiveByte_rxbuf_getElem (b : Byte) (s : State) (j : Nat) (h : j < 9) (hj : j ≠ s.rxcnt) :
    (receiveByte b s).rxbuf[j] = s.rxbuf[j] := by
  obtain ⟨hlt, e⟩ | ⟨-, e⟩ | ⟨-, e⟩ := receiveByte_cases b s <;> simp only [e]
  exact Vector.getElem_set_ne hlt h hj.symm

/-! ### A burst from an empty buffer -/

theorem execAll_append (xs ys : List Instr) (s t : State) (h : execAll xs s = .next t) :
    execAll (xs ++ ys) s = execAll ys t := by
  rw [execAll_eq_next] at h
  injection h with h
  rw [execAll_eq_next, List.foldl_append, h, execAll_eq_next]

/-- After a burst of 9 bytes that decode to a reading, the buffer carries that reading. -/
theorem receiveBytes_burstCarries (bs : List Byte) (s : State) (r : Reading) (h0 : s.rxcnt = 0) (hlen : bs.length = 9)
    (hr : decodeFrame bs = .ok r) : (receiveBytes bs s).BurstCarries r :=
  ⟨receiveBytes_rxcnt_of_nine bs s h0 hlen, by rw [receiveBytes_rxbuf_of_nine bs s h0 hlen, hr]⟩

/-- Apart from the buffer, a burst that starts with a count of 0 ends as the callback does (decisions D12, D13). -/
theorem endBurst_receiveBytes_eq_drainCallback (bs : List Byte) (s : State) (h0 : s.rxcnt = 0) :
    { endBurst (receiveBytes bs s) with rxbuf := s.rxbuf } = drainCallback bs s := by
  by_cases hlen : bs.length = 9
  · cases hd : decodeFrame bs with
    | ok r =>
      rw [endBurst_of_burstCarries _ r (receiveBytes_burstCarries bs s r h0 hlen hd), receiveBytes_frame]
      simp only [drainCallback, hlen, hd, ← h0]
      rfl
    | error e =>
      cases e
      rw [endBurst_of_checksumError _ (receiveBytes_rxcnt_of_nine bs s h0 hlen)
        (by rw [receiveBytes_rxbuf_of_nine bs s h0 hlen, hd]), receiveBytes_frame]
      simp only [drainCallback, hlen, hd, ← h0]
      rfl
  · have hcnt := receiveBytes_rxcnt bs s (by omega)
    rw [endBurst_of_wrong_length _ (by omega), receiveBytes_frame]
    simp only [drainCallback, hlen, ← h0]
    rfl

/-! ### Operations of the other sources between those of a burst -/

/-- Two states that differ in events of other sources only, as far as the receive path goes. -/
def SameReceivePath (t u : State) : Prop :=
  t = { u with events := t.events } ∧ t.events.filter Event.isReceive = u.events.filter Event.isReceive

theorem SameReceivePath.registers {t u : State} (htu : SameReceivePath t u) :
    t.reading = u.reading ∧ t.rdValid = u.rdValid ∧ t.rxbuf = u.rxbuf ∧ t.rxcnt = u.rxcnt := by
  obtain ⟨ht, -⟩ := htu
  rw [ht]
  exact ⟨rfl, rfl, rfl, rfl⟩

/-- Only the serial receiver may cause a diagnostic or a publish (rule R195). -/
theorem not_isReceive_of_mayCause {src : Source} {e : Event} (hsrc : src ≠ .serialReceiver) (h : mayCause src e = true) :
    e.isReceive = false := by
  cases src with
  | serialReceiver => exact absurd rfl hsrc
  | controlSurface =>
    match e, h with
    | .sampleReq, _ | .tx _, _ | .ack _, _ | .status _ _ _, _ => rfl
  | pollTimer =>
    match e, h with
    | .sampleReq, _ | .tx _, _ => rfl

/-- An operation outside the receive path emits no event of the receive path. -/
theorem filter_emittedBy_other (i : Instr) (s : State) (h : i.isReceive = false) :
    (emittedBy i s).filter Event.isReceive = [] := by
  have hsrc : i.source ≠ .serialReceiver := beq_eq_false_iff_ne.mp h
  refine List.filter_eq_nil_iff.mpr fun e he => ?_
  rw [not_isReceive_of_mayCause hsrc (mayCause_of_mem_emittedBy i s e he)]
  decide

theorem SameReceivePath.effectOf_other {t u : State} (htu : SameReceivePath t u) (i : Instr) (h : i.isReceive = false) :
    SameReceivePath (effectOf i t) u := by
  obtain ⟨ht, hevents⟩ := htu
  refine ⟨?_, ?_⟩
  · rw [effectOf_other_frame i t h, ht]
  · rw [effectOf_events, List.filter_append, filter_emittedBy_other i t h, List.append_nil, hevents]

theorem SameReceivePath.effectOf {t u : State} (htu : SameReceivePath t u) (i : Instr) :
    SameReceivePath (effectOf i t) (effectOf i u) := by
  obtain ⟨ht, hevents⟩ := htu
  have hi : Machine.effectOf i t = { Machine.effectOf i u with events := t.events ++ emittedBy i u } := by
    rw [ht]
    exact effectOf_withEvents i u t.events
  rw [hi]
  refine ⟨rfl, ?_⟩
  simp only [effectOf_events, List.filter_append, hevents]

/-- Leaving the operations of the other sources out changes nothing for the receive path (rule R152). -/
theorem SameReceivePath.foldl_filter (ops : List Instr) {t u : State} (htu : SameReceivePath t u) :
    SameReceivePath (ops.foldl (fun s i => Machine.effectOf i s) t)
      ((ops.filter Instr.isReceive).foldl (fun s i => Machine.effectOf i s) u) := by
  induction ops generalizing t u with
  | nil => exact htu
  | cons i ops ih =>
    cases hi : i.isReceive with
    | true =>
      rw [List.filter_cons_of_pos hi]
      exact ih (htu.effectOf i)
    | false =>
      rw [List.filter_cons_of_neg (by rw [hi]; decide)]
      exact ih (htu.effectOf_other i hi)

/-- Without an `RXE` no operation of a sequence writes the reading registers (rule R28). -/
theorem foldl_effectOf_reading (ops : List Instr) (s : State) (h : .rxe ∉ ops) :
    (ops.foldl (fun t i => effectOf i t) s).reading = s.reading := by
  induction ops generalizing s with
  | nil => rfl
  | cons i ops ih =>
    obtain ⟨hi, hops⟩ := List.ne_and_not_mem_of_not_mem_cons h
    exact (ih (effectOf i s) hops).trans (effectOf_reading_of_not_accepts i s (.inl hi.symm))

/-! ### The obligations about bursts -/

/-- Settles O36: the frame of each of the two operations. -/
theorem receiveOperationsFrame : Obligations.ReceiveOperationsFrame :=
  ⟨fun b s => ⟨_, exec_eq_next (.rxb b) s, receiveByte_frame b s, receiveByte_rxbuf_getElem b s⟩,
    fun s => ⟨_, exec_eq_next .rxe s, endBurst_frame s⟩⟩

/-- Settles O46: neither burst is 9 bytes long, and the first leaves a count of 0 for the second. -/
theorem fragmentedFrameIsLost : Obligations.FragmentedFrameIsLost := by
  intro s a b h0 hsum ha1 ha8
  obtain ⟨abuf, hfirst⟩ := wrongLengthBurstIsDropped s a h0 (by omega)
  obtain ⟨bbuf, hsecond⟩ := wrongLengthBurstIsDropped { s with rxbuf := abuf, rxcnt := 0 } b rfl (by omega)
  refine ⟨bbuf, ?_⟩
  rw [execAll_append _ _ _ _ hfirst, hsecond, ← h0]

/-- Settles O47: a composed frame decodes to its payload's fields, which the `RXE` of its burst writes and publishes. -/
theorem composedFrameIsAccepted : Obligations.ComposedFrameIsAccepted := by
  intro p s h0
  have hburst := receiveBytes_burstCarries _ s _ h0 Vector.length_toList (decodeFrame_compose p)
  refine ⟨_, execAll_receiveFrame _ s, ?_⟩
  rw [endBurst_of_burstCarries _ _ hburst, receiveBytes_frame]
  exact ⟨co2Field_toNat p[3] p[4], temperatureField_toInt p[5], rfl, rfl, rfl⟩

/-- Settles O48: the burst by its length and, at 9 bytes, by what `Decode` answers. -/
theorem burstRefinesReceiveCallback : Obligations.BurstRefinesReceiveCallback :=
  fun s bs h0 => ⟨_, execAll_receiveFrame bs s, endBurst_receiveBytes_eq_drainCallback bs s h0⟩

/-- Settles O49: the two runs stay in `SameReceivePath`. -/
theorem burstIgnoresOtherSources : Obligations.BurstIgnoresOtherSources := by
  intro ops s
  have hsame := SameReceivePath.foldl_filter ops (t := s) (u := s) ⟨rfl, rfl⟩
  obtain ⟨hreading, hvalid, hbuf, hcnt⟩ := hsame.registers
  obtain ⟨-, hevents⟩ := hsame
  exact ⟨_, _, execAll_eq_next ops s, execAll_eq_next _ s, hreading, hvalid, hbuf, hcnt, hevents⟩

/-- Settles O50: only an `RXE` writes the registers that the query reports. -/
theorem queryAnswersStaleReading : Obligations.QueryAnswersStaleReading := by
  intro ops s h
  obtain ⟨hco2, htemp, hstat⟩ := (reading_eq_iff _ _).mp (foldl_effectOf_reading ops s h)
  refine ⟨_, (execAll_append ops [.query] s _ (execAll_eq_next ops s)).trans (execAll_eq_next _ _), ?_⟩
  rw [List.foldl_cons, List.foldl_nil, effectOf_events, emittedBy_query, List.getLast?_concat, hco2, htemp, hstat]
  rfl

end Sys2Proof.Machine
end

section
/-! PROOF. The invariant of the block and the stale buffer bytes (10_state.md, 70_reset_and_hazards.md): reset, every operation and
every step keep the invariant, and the unwritten part of the buffer reaches nothing. -/

namespace Sys2Proof.Machine

/-! ### The invariant -/

/-- The table of the configuration meets rule R80 whatever its open bytes are. -/
theorem reset_inv : State.reset.Inv := ⟨rfl, by decide, by decide, fun _ => ⟨rfl, rfl, rfl⟩⟩

/-- The temperature field of a decoded frame lies in the range of `TEMP` (rules R25, R107). -/
theorem temperature_range_of_decodeFrame (b : List Byte) (r : Reading) (h : decodeFrame b = .ok r) :
    -37 ≤ r.temperatureC.toInt ∧ r.temperatureC.toInt ≤ 218 := by
  obtain ⟨-, -, rfl⟩ := (decodeFrame_ok_iff b r).mp h
  have hlt := (byteAt b 5).isLt
  have htemp : (readingOf b).temperatureC.toInt = ((byteAt b 5).toNat : Int) - 37 := temperatureField_toInt _
  omega

/-- Every operation keeps the count in its range (rule R31). -/
theorem effectOf_countInRange (i : Instr) (s : State) (h : s.CountInRange) : (effectOf i s).CountInRange := by
  have h10 : s.rxcnt ≤ 10 := h
  show (effectOf i s).rxcnt ≤ 10
  cases hi : i.isReceive with
  | false => rwa [effectOf_other_rxcnt i s hi]
  | true =>
    cases i with
    | rxb b =>
      rw [effectOf, receiveByte_rxcnt b s h]
      exact min_le_right _ _
    | rxe =>
      rw [effectOf, endBurst_rxcnt]
      omega
    | _ => cases hi

/-- Every operation keeps the invariant: it keeps the reading with its flag, or takes a decoded reading and sets the flag. -/
theorem effectOf_inv (i : Instr) (s : State) (h : s.Inv) : (effectOf i s).Inv := by
  obtain ⟨hrom, hcnt, htemp, hunread⟩ := h
  have hrom' : (effectOf i s).RomMeetsTableRule := by
    show tableMeetsRule (effectOf i s).rom = true
    rwa [effectOf_rom]
  refine ⟨hrom', effectOf_countInRange i s hcnt, ?_⟩
  obtain ⟨hk, hvalid⟩ | ⟨-, r, ⟨-, hr⟩, hacc, hvalid⟩ := effectOf_keeps_or_accepts i s
  · obtain ⟨hco2, htmp, hstat⟩ := (reading_eq_iff _ _).mp hk
    show (-37 ≤ (effectOf i s).temp.toInt ∧ (effectOf i s).temp.toInt ≤ 218) ∧ _
    rw [State.UnreadIsReset, hco2, htmp, hstat, hvalid]
    exact ⟨htemp, hunread⟩
  · obtain ⟨-, htmp, -⟩ := (reading_eq_iff _ _).mp hacc
    refine ⟨?_, fun hfalse => absurd (hvalid.symm.trans hfalse) (by decide)⟩
    rw [State.TempInRange, htmp]
    exact temperature_range_of_decodeFrame _ r hr

/-- A reset of any state restores all of the invariant but the table's part, which it keeps (rule R200). -/
theorem takeReset_inv (s : State) (h : s.RomMeetsTableRule) : (takeReset s).Inv := by
  obtain ⟨-, hcnt, htemp, hunread⟩ := reset_inv
  exact ⟨h, hcnt, htemp, hunread⟩

theorem step_inv (s t : State) (h : s.Inv) (hstep : step s = .next t) : t.Inv := by
  obtain ⟨-, rfl⟩ | ⟨-, -, -, rfl⟩ | ⟨w, rest, i, -, -, -, -, rfl⟩ | ⟨w, rest, -, -, -, -, rfl⟩ := step_next_cases s t hstep
  · exact takeReset_inv s h.1
  · exact h
  · exact effectOf_inv i _ h
  · exact h

/-- Every sequence of operations keeps the invariant. -/
theorem execAll_inv (is : List Instr) (s t : State) (h : s.Inv) (ht : execAll is s = .next t) : t.Inv := by
  rw [execAll_eq_next] at ht
  injection ht with ht
  exact ht ▸ List.foldlRecOn is _ h fun s hs i _ => effectOf_inv i s hs

/-! ### The stale buffer bytes -/

theorem SameButStaleBytes.refl (s : State) : SameButStaleBytes s s := ⟨rfl, fun _ _ _ => rfl⟩

/-- Once 9 bytes have come no byte of the buffer is stale. -/
theorem SameButStaleBytes.eq_of_full {s t : State} (hst : SameButStaleBytes s t) (h : 9 ≤ s.rxcnt) : t = s := by
  obtain ⟨ht, hbytes⟩ := hst
  have hbuf : t.rxbuf = s.rxbuf := Vector.ext fun i hi => (hbytes i hi (by omega)).symm
  rw [ht, hbuf]

/-- An operation reads no stale byte, and `RXB` writes the byte that its count makes current. -/
theorem SameButStaleBytes.effectOf {s t : State} (hst : SameButStaleBytes s t) (i : Instr) :
    SameButStaleBytes (effectOf i s) (effectOf i t) := by
  by_cases hfull : 9 ≤ s.rxcnt
  · rw [hst.eq_of_full hfull]
    exact .refl _
  · have hlt : s.rxcnt < 9 := by omega
    obtain ⟨ht, hbytes⟩ := hst
    generalize t.rxbuf = buf at ht hbytes
    subst ht
    cases i with
    | rxb b =>
      rw [Machine.effectOf, Machine.effectOf, receiveByte_of_lt b s hlt, receiveByte_of_lt b { s with rxbuf := buf } hlt]
      refine ⟨rfl, fun j hj hcnt => ?_⟩
      have hle : j < s.rxcnt + 1 := hcnt
      simp only [Vector.getElem_set]
      split
      · rfl
      · exact hbytes j hj (by omega)
    | rxe =>
      have hne : s.rxcnt ≠ 9 := by omega
      rw [Machine.effectOf, Machine.effectOf, endBurst_of_wrong_length s hne,
        endBurst_of_wrong_length { s with rxbuf := buf } hne]
      exact ⟨rfl, fun j _ hcnt => absurd hcnt (Nat.not_lt_zero j)⟩
    | _ => exact ⟨rfl, hbytes⟩

theorem SameButStaleBytes.inputs {s t : State} (hst : SameButStaleBytes s t) :
    t.resetIn = s.resetIn ∧ t.fault = s.fault ∧ t.port = s.port := by
  obtain ⟨ht, -⟩ := hst
  rw [ht]
  exact ⟨rfl, rfl, rfl⟩

/-- Taking a word from the port and recording a fault touch no buffer byte. -/
theorem SameButStaleBytes.withPortAndFault {s t : State} (hst : SameButStaleBytes s t) (ws : List Word) (f : FaultReg) :
    SameButStaleBytes { s with port := ws, fault := f } { t with port := ws, fault := f } := by
  obtain ⟨ht, hbytes⟩ := hst
  exact ⟨by rw [ht], hbytes⟩

theorem SameButStaleBytes.takeReset_eq {s t : State} (hst : SameButStaleBytes s t) : takeReset t = takeReset s := by
  obtain ⟨ht, -⟩ := hst
  rw [ht]
  rfl

/-- A step by what it finds at the inputs, which the two states share. -/
theorem SameButStaleBytes.step {s t : State} (hst : SameButStaleBytes s t) :
    OutcomesAgree SameButStaleBytes (step s) (step t) := by
  obtain ⟨hresetIn, hfaultReg, hwords⟩ := hst.inputs
  cases hreset : s.resetIn with
  | true =>
    rw [step_of_reset s hreset, step_of_reset t (hresetIn.trans hreset), hst.takeReset_eq]
    exact .refl _
  | false =>
    cases hfault : s.fault with
    | illegalOp w =>
      rw [step_of_fault s w hfault hreset, step_of_fault t w (hfaultReg.trans hfault) (hresetIn.trans hreset)]
      rfl
    | none =>
      have hs : s.Clear := ⟨hreset, (running_iff s).mpr hfault⟩
      have ht : t.Clear := ⟨hresetIn.trans hreset, (running_iff t).mpr (hfaultReg.trans hfault)⟩
      cases hport : s.port with
      | nil =>
        rw [step_of_empty_port s hs hport, step_of_empty_port t ht (hwords.trans hport)]
        exact hst
      | cons w rest =>
        rw [step_of_word s w rest hs hport, step_of_word t w rest ht (hwords.trans hport)]
        cases decode w with
        | op i =>
          simp only [exec_eq_next, hfaultReg]
          exact (hst.withPortAndFault rest s.fault).effectOf i
        | illegalOp v => exact hst.withPortAndFault rest (.illegalOp v)

/-! ### The obligations about the invariant and the stale bytes -/

/-- Settles O51: the table meets its rule by its two constant bytes, and the registers are zero. -/
theorem invariantHoldsAtReset : Obligations.InvariantHoldsAtReset := reset_inv

/-- Settles O52, from the cases of a step: a reset, an operation, or no write to what the invariant speaks of. -/
theorem stepKeepsInvariant : Obligations.StepKeepsInvariant := step_inv

/-- Settles O53: the invariant speaks of no input and not of `FAULT`, the only fields that the environment writes. -/
theorem inputsKeepInvariant : Obligations.InputsKeepInvariant := fun _ _ _ _ h => ⟨h, h, h⟩

/-- Settles O54: the invariant holds after any operations from reset, and it makes the reported registers zero. -/
theorem queryBeforeFirstFrameAnswersZeros : Obligations.QueryBeforeFirstFrameAnswersZeros := by
  intro ops t ht hv
  obtain ⟨-, -, -, hunread⟩ := execAll_inv ops State.reset t reset_inv ht
  rw [exec_query, afterStatus_of_unread t hunread hv]

/-- Settles O55: a reset clears the whole buffer, and an operation decodes it only when no byte of it is stale. -/
theorem staleBufferBytesAreUnobservable : Obligations.StaleBufferBytesAreUnobservable := fun _ _ hst => hst.step

end Sys2Proof.Machine
end
